-- ==== Sys2Proof/Word.lean ====
section
/-! DEFINITION. The word types of the module and the index types of its numbered parts (R2, R3). -/

namespace Sys2Proof

abbrev Byte := BitVec 8
abbrev Half16 := BitVec 16
abbrev Word := BitVec 32
abbrev DWord := BitVec 64

/-- A vector register of 256 B (R104). -/
abbrev VReg := BitVec 2048

abbrev CoreId := Fin 96
abbrev ThreadId := Fin 32
abbrev HalfId := Fin 2
abbrev LinkId := Fin 6
abbrev StackId := Fin 12
abbrev PartId := Fin 4
abbrev BankId := Fin 2
abbrev ColId := Fin 32
abbrev AxisId := Fin 3
abbrev SlotId := Fin 16
abbrev VcId := Fin 4

end Sys2Proof
end

