-- ==== Sys2Proof/Machine/Sparse.lean ====
section
/-! DEFINITION. Sparse maps from Nat keys: sorted lists of pairs that never list the default value, so that equal
maps are equal data. The memory of the module is one of them. -/

namespace Sys2Proof.Machine

/-- A sparse map: keys rise strictly and no listed value is the default. -/
abbrev Map (α : Type) := List (Nat × α)

/-- The value at key `k`, the default `d` where it is not listed. -/
def mapGet {α : Type} (d : α) : Map α → Nat → α
  | [], _ => d
  | (a, x) :: r, k => if k = a then x else mapGet d r k

/-- Whether key `k` is listed, and with what. -/
def mapFind {α : Type} : Map α → Nat → Option α
  | [], _ => none
  | (a, x) :: r, k => if k = a then some x else mapFind r k

/-- Insert in key order, replacing an equal key. -/
def mapIns {α : Type} : Map α → Nat → α → Map α
  | [], k, v => [(k, v)]
  | (a, x) :: r, k, v =>
    if k < a then (k, v) :: (a, x) :: r
    else if k = a then (k, v) :: r
    else (a, x) :: mapIns r k v

/-- Remove a key. -/
def mapDel {α : Type} : Map α → Nat → Map α
  | [], _ => []
  | (a, x) :: r, k => if k = a then mapDel r k else (a, x) :: mapDel r k

/-- Set key `k` to `v`; writing the default removes the entry. -/
def mapSet {α : Type} [DecidableEq α] (d : α) (m : Map α) (k : Nat) (v : α) : Map α :=
  if v = d then mapDel m k else mapIns m k v

/-- The value at `k` changed by `f`. -/
def mapMod {α : Type} [DecidableEq α] (d : α) (m : Map α) (k : Nat) (f : α → α) : Map α :=
  mapSet d m k (f (mapGet d m k))

/-- Every listed value changed by `f`. -/
def mapVals {α : Type} [DecidableEq α] (d : α) (m : Map α) (f : α → α) : Map α :=
  m.filterMap fun p => let v := f p.2; if v = d then none else some (p.1, v)

/-- Every key is above `b`, keys rise strictly, no value is the default. -/
def mapWfFrom {α : Type} [DecidableEq α] (d : α) : Option Nat → Map α → Bool
  | _, [] => true
  | b, (a, x) :: r => (match b with | none => true | some n => decide (n < a)) && decide (x ≠ d) && mapWfFrom d (some a) r

/-- The canonical form of a map. -/
def mapWf {α : Type} [DecidableEq α] (d : α) (m : Map α) : Bool := mapWfFrom d none m

/-- Remove from a list its first element that satisfies `p`, with the element. -/
def takeFirst {α : Type} (p : α → Bool) : List α → Option (α × List α)
  | [] => none
  | x :: r => if p x then some (x, r) else (takeFirst p r).map fun (y, q) => (y, x :: q)

/-- Replace the element at position `i`. -/
def setAt {α : Type} : List α → Nat → α → List α
  | [], _, _ => []
  | _ :: r, 0, v => v :: r
  | x :: r, i + 1, v => x :: setAt r i v

/-- Remove the element at position `i`. -/
def delAt {α : Type} : List α → Nat → List α
  | [], _ => []
  | _ :: r, 0 => r
  | x :: r, i + 1 => x :: delAt r i

/-- `n` numbers in rising order from `a`, by structural recursion. -/
def seqFrom : Nat → Nat → List Nat
  | _, 0 => []
  | a, n + 1 => a :: seqFrom (a + 1) n

/-- The numbers below `n` in rising order. -/
def upto (n : Nat) : List Nat := seqFrom 0 n

/-- The element at position `i`, `d` where there is none. -/
def nth {α : Type} (d : α) : List α → Nat → α
  | [], _ => d
  | x :: _, 0 => x
  | _ :: r, i + 1 => nth d r i

end Sys2Proof.Machine
end

