-- ==== Sys2Proof/Machine/Bits.lean ====
section
/-! DEFINITION. Bit fields, byte order and plain integer helpers used by every block (R3, R4). -/

namespace Sys2Proof.Machine

/-- Bits [hi:lo] of `x` as a number (R3). -/
def field {n : Nat} (x : BitVec n) (hi lo : Nat) : Nat := (x.toNat >>> lo) % 2 ^ (hi + 1 - lo)

/-- Bit `i` of `x`. -/
def bit {n : Nat} (x : BitVec n) (i : Nat) : Bool := x.getLsbD i

/-- `x` with bits [hi:lo] set to the low bits of `v`. -/
def setField {n : Nat} (x : BitVec n) (hi lo v : Nat) : BitVec n :=
  let m : Nat := (2 ^ (hi + 1 - lo) - 1) <<< lo
  BitVec.ofNat n ((x.toNat &&& ((2 ^ n - 1) ^^^ m)) ||| (((v % 2 ^ (hi + 1 - lo)) <<< lo)))

/-- The word that holds `n`. -/
def w32 (n : Nat) : Word := BitVec.ofNat 32 n

def b2n (b : Bool) : Nat := if b then 1 else 0

/-- `n` bytes of `x`, little-endian (R4). -/
def leBytes : Nat → Nat → List Byte
  | 0, _ => []
  | n + 1, x => BitVec.ofNat 8 x :: leBytes n (x / 256)

/-- The number a little-endian byte string holds (R4). -/
def leNat : List Byte → Nat
  | [] => 0
  | b :: r => b.toNat + 256 * leNat r

/-- `n` bytes of `x`, big-endian (R350). -/
def beBytes (n x : Nat) : List Byte := (leBytes n x).reverse

/-- The number a big-endian byte string holds. -/
def beNat (l : List Byte) : Nat := leNat l.reverse

/-- `n` bytes of `l` from offset `o`, with zero bytes where `l` ends. -/
def slice (l : List Byte) (o n : Nat) : List Byte :=
  let t := (l.drop o).take n
  t ++ List.replicate (n - t.length) 0

/-- The little-endian number of `n` bytes at offset `o`. -/
def leAt (l : List Byte) (o n : Nat) : Nat := leNat (slice l o n)

/-- The signed value of the low `n` bits of `x` in two's complement. -/
def sgn (n x : Nat) : Int :=
  let y := x % 2 ^ n
  if y < 2 ^ (n - 1) then (y : Int) else (y : Int) - (2 ^ n : Nat)

/-- The two's complement code of `x` in `n` bits. -/
def code (n : Nat) (x : Int) : Nat := (x % ((2 ^ n : Nat) : Int)).toNat

/-- `x` held within `lo` and `hi`. -/
def clampI (lo hi x : Int) : Int := if x < lo then lo else if hi < x then hi else x

/-- `x + d` held at `2^w - 1`: a saturating counter of `w` bits. -/
def satAdd (w x d : Nat) : Nat := if 2 ^ w - 1 < x + d then 2 ^ w - 1 else x + d

/-- ceil(a / b), 0 where b is 0. -/
def ceilDiv (a b : Nat) : Nat := if b = 0 then 0 else (a + b - 1) / b

/-- The smallest s with 2^s at or above `n` (R194); 0 for 0 and 1. -/
def ceilLog2 (n : Nat) : Nat := if n ≤ 1 then 0 else Nat.log2 (n - 1) + 1

def allZero (l : List Byte) : Bool := l.all (· == 0)

/-- Number of ones in the low `n` bits of `x`. -/
def popcount (n x : Nat) : Nat := ((upto n).filter fun i => x.testBit i).length

/-- Ranges [a, a+n) and [b, b+m) share a byte. -/
def overlap (a n b m : Nat) : Bool := decide (0 < n) && decide (0 < m) && decide (a < b + m) && decide (b < a + n)

/-- Range [a, a+n) lies inside [b, b+m). -/
def inside (a n b m : Nat) : Bool := decide (b ≤ a) && decide (a + n ≤ b + m)

end Sys2Proof.Machine
end

