-- ==== Sys2Proof/Machine/Wire.lean ====
section
/-! DEFINITION. The operand types of the commands: instruction fields (R109), packets (R283), link groups (R261),
identities (R268), Aukor heads (R357), and the outcomes the environment supplies. -/

namespace Sys2Proof.Machine

/-- The fields of an instruction word other than CLASS and OP, which are the row itself (R109). -/
structure IFields where
  ra : BitVec 5 := 0
  rb : BitVec 5 := 0
  rc : BitVec 5 := 0
  rd : BitVec 5 := 0
  wen : Bool := false
  wctr : BitVec 3 := 0
  imm : BitVec 30 := 0
  deriving DecidableEq, Repr

/-- Who accesses a register: a session slot, or the board's management controller over I3C (R9, R10). -/
inductive Requester where
  | sess (slot : SlotId)
  | i3c
  deriving DecidableEq, Repr

/-- The head of a command with the slot it arrived on: REQ_ID and EPOCH (R357). -/
structure Head where
  slot : SlotId
  reqId : BitVec 16
  epoch : BitVec 32
  deriving DecidableEq, Repr

/-- A job coordinate (R258). -/
structure Coord where
  x : Nat
  y : Nat
  z : Nat
  deriving DecidableEq, Repr

/-- The coordinate along axis `a`. -/
def Coord.get (c : Coord) (a : Nat) : Nat := if a = 0 then c.x else if a = 1 then c.y else c.z

/-- The coordinate with axis `a` set. -/
def Coord.set (c : Coord) (a v : Nat) : Coord :=
  if a = 0 then { c with x := v } else if a = 1 then { c with y := v } else { c with z := v }

/-- A packet: header fields of R283, payload and tuning words. `resBad` says that a reserved field is not 0. -/
structure Packet where
  kind : BitVec 4 := 0
  vc : BitVec 2 := 0
  esc : Bool := false
  cmark : Bool := false
  last : Bool := false
  carrier : Bool := false
  spSrc : Bool := false
  spRing : Bool := false
  notifyEn : Bool := false
  echo : Bool := false
  len : Nat := 0
  dst : Coord := ⟨0, 0, 0⟩
  dl : BitVec 3 := 0
  src : Coord := ⟨0, 0, 0⟩
  mcAxis : BitVec 2 := 0
  mcDir : Bool := false
  mc : Bool := false
  srcCore : BitVec 7 := 0
  msgTag : BitVec 16 := 0
  pktIndex : BitVec 16 := 0
  pktCount : BitVec 16 := 0
  addr : BitVec 41 := 0
  notify : BitVec 16 := 0
  bucket : BitVec 12 := 0
  e : BitVec 8 := 0
  status : BitVec 8 := 0
  resBad : Bool := false
  payload : List Byte := []
  words : List (BitVec 16) := []
  deriving DecidableEq, Repr

/-- Flit types of the control word (R261). -/
inductive FlitKind where
  | idle | data | message | res
  deriving DecidableEq, Repr

/-- A flit of 64 B with its type. -/
structure Flit where
  kind : FlitKind
  bits : BitVec 512
  deriving DecidableEq, Repr

/-- ACK_KIND of the control word (R261). -/
inductive AckKind where
  | none | ack | nak | res
  deriving DecidableEq, Repr

/-- What a group of 8 flits and its control word say (R261). -/
structure Group where
  seq : BitVec 12 := 0
  ackKind : AckKind := .none
  ack : BitVec 12 := 0
  credit : List Nat := [0, 0, 0, 0]
  upshift : Bool := false
  lowrateOk : Bool := false
  flits : List Flit := []
  deriving DecidableEq, Repr

/-- A group as it stands on a link: the control word and 8 flits of 64 B (R261). -/
structure GroupWire where
  ctl : BitVec 128 := 0
  flits : List (BitVec 512) := []
  deriving DecidableEq, Repr

/-- An IDENT message (R268). -/
structure Ident where
  magic : Word := 0x544C4944
  vmin : Byte := 0x10
  vmax : Byte := 0x13
  port : Byte := 0
  coordValid : Bool := false
  strapFault : Bool := false
  rest : Bool := false
  serial : DWord := 0
  jobTag : Word := 0
  x : Byte := 0xFF
  y : Byte := 0xFF
  z : Byte := 0xFF
  minv : Byte := 0x10
  lanes : BitVec 16 := 0xFFFF
  deriving DecidableEq, Repr

/-- A parity upset of a stationary register: row, column and the bits that flipped (R92). -/
structure Parity where
  row : Fin 32
  col : Fin 32
  flip : BitVec 128
  deriving DecidableEq, Repr

/-- What an accumulator read met: nothing, a corrected error, or an uncorrectable error that flipped bits (R92). -/
inductive AccErr where
  | ok | ce | ue (flip : BitVec 96)
  deriving DecidableEq, Repr

/-- A bank and what the reads of a row's entries met in it, by column (R81, R92). -/
structure BankErrs where
  bank : BankId
  errs : List (ColId × AccErr)
  deriving DecidableEq, Repr

/-- A bank and what the read of an entry met in it (R85, R92). -/
structure BankErr where
  bank : BankId
  err : AccErr
  deriving DecidableEq, Repr

/-- A bank of a partition (R84). -/
structure PartBank where
  part : PartId
  bank : BankId
  deriving DecidableEq, Repr

/-- The kinds of memory error (R182, R185). -/
inductive EccKind where
  | correctable | uncorrectable
  deriving DecidableEq, Repr

/-- Causes that stop a whole core through its array (R95). -/
inductive ArrFault where
  | drain | bist | clk
  deriving DecidableEq, Repr

/-- Where a fault of R139 arose. -/
inductive CoreUnit where
  | issue | move
  deriving DecidableEq, Repr

/-- A function of the shared state machine (R424). -/
inductive FuncId where
  | gate (n : Fin 308)
  | stack (j : StackId)
  | run
  deriving DecidableEq, Repr

/-- Why a training attempt found no lock (R267, LAST_FAIL). -/
inductive TrainFail where
  | noSignal | noLock | fewLanes
  deriving DecidableEq, Repr

/-- The trips of R433. -/
inductive TripCause where
  | otDie (h : HalfId)
  | otStack (j : StackId)
  | oc
  | uv
  deriving DecidableEq, Repr

/-- A branch with a clock monitor: a node of the gate tree, or a domain by its code (R400, R413). -/
inductive ClkBranch where
  | gate (n : Fin 308)
  | dom (d : Fin 18)
  deriving DecidableEq, Repr

/-- A clock reference (R401). -/
inductive RefSrc where
  | xtal | refclk | link
  deriving DecidableEq, Repr

/-- A host address: IPv6, or IPv4 mapped into it (R343). -/
abbrev IpAddr := BitVec 128

/-- The two ends of a host frame (R343). -/
structure AddrPair where
  host : IpAddr
  module : IpAddr
  deriving DecidableEq, Repr

/-- Position of a packet of a RoCE message (R346). -/
inductive RocePos where
  | first | middle | last | only
  deriving DecidableEq, Repr

/-- The Ethernet layer of a received frame: its 802.1Q priority, none where it is untagged, and its bytes (R342, R344). -/
structure EthHead where
  pcp : Option (BitVec 3)
  len : BitVec 16
  deriving DecidableEq, Repr

/-- The layers of a received IP packet below its payload (R342, R343). -/
structure IpIn where
  eth : EthHead
  addr : AddrPair
  deriving DecidableEq, Repr

/-- A UDP payload with its destination port (R350). -/
structure UdpData where
  port : BitVec 16
  data : List Byte
  deriving DecidableEq, Repr

/-- A received UDP datagram: addresses, destination port, payload (R342, R350). -/
structure UdpIn where
  eth : EthHead
  addr : AddrPair
  port : BitVec 16
  data : List Byte
  deriving DecidableEq, Repr

/-- The transport fields of a received RoCE packet (R346). -/
structure RoceHead where
  eth : EthHead
  qpn : BitVec 24
  psn : BitVec 24
  peer : IpAddr
  icrcOk : Bool
  ce : Bool
  deriving DecidableEq, Repr

/-- Arguments of QP_CREATE (R359). -/
structure QpArgs where
  peerIp : IpAddr
  peerQpn : BitVec 32
  pmtu : Byte
  slotLog2 : Byte
  slotCount : BitVec 16
  rqPsn : BitVec 32
  ringAddr : DWord
  notify : BitVec 16
  deriving DecidableEq, Repr

/-- What the security block finds when it checks a firmware slot (R455). -/
structure SlotCheck where
  sigOk : Bool
  digestOk : Bool
  romDigest : BitVec 384
  mgmtDigest : BitVec 384
  deriving DecidableEq, Repr

/-- Why a host frame is dropped (R342, R344, R346, R350). -/
inductive DropKind where
  | ipFragment | ipExtension | tcp | multicast | priority | tooLong | unknownQp | wrongPeer | icrc | fcs | badAukor
  | roceOpcode (b : RoceHead) | udpPort (a : AddrPair)
  deriving DecidableEq, Repr

/-- A Neighbor Discovery or SLAAC message (R343). -/
inductive NdMsg where
  | solicit (target : IpAddr) (from_ : IpAddr)
  | routerAdv (pfx : BitVec 64)
  deriving DecidableEq, Repr

/-- A DHCPv4 message for the module (R343). -/
inductive DhcpMsg where
  | offer (addr : BitVec 32)
  | ack (addr : BitVec 32)
  | nak
  deriving DecidableEq, Repr

/-- A DHCPv4 message in its frame (R343, R344). -/
structure DhcpIn where
  eth : EthHead
  msg : DhcpMsg
  deriving DecidableEq, Repr

/-- A register access by a CCC of I3C (R451): the operand of ENTDAA and SETDASA. -/
abbrev DynAddr := BitVec 7

end Sys2Proof.Machine
end

