-- ==== Sys2Proof/Syntax.lean ====
section
/-! DEFINITION. The commands: one constructor for each row of spec/opcode_table.json, with the row's operands. -/

namespace Sys2Proof

open Sys2Proof.Machine

/-- A command: one row of the table of operations and events. -/
inductive Instr where
  /-- REG_WRITE (R5): A write to a control-space register that has no row of its own, with the access-code, session and address checks. -/
  | regWrite (r : Requester) (addr value : Word)
  /-- REG_READ_CLEAR (R9): A read of an RC field returns the value and clears it when the read comes from the owner session or I3C. -/
  | regReadClear (r : Requester) (addr : Word)
  /-- ARR_DBG_DATA0_READ (R100): A read of ARR_DBG_DATA0 samples the selected accumulator entry in debug mode, or is denied. -/
  | arrDbgData0Read (r : Requester) (c : CoreId) (e : AccErr)
  /-- STEP_COMMITTED_HI_WRITE (R237): A write to STEP_COMMITTED_HI applies the pending LO and HI values to COMMITTED_STEP in phase IDLE. -/
  | stepCommittedHiWrite (r : Requester) (value : Word)
  /-- TIME_ADJUST (R409): A write to CLK_TIME_ADJ_HI steps the time count by the signed amount. -/
  | timeAdjust (r : Requester) (value : Word)
  /-- TRACE_RESTART (R447): A write of 0 to EVT_TRACE_IDX restarts the trace buffer. -/
  | traceRestart (r : Requester) (value : Word)
  /-- THREAD_STOP (R108): Setting a STOP bit in CORE_THR_CTL in debug mode suspends the thread after its current instruction. -/
  | threadStop (r : Requester) (c : CoreId) (t : ThreadId)
  /-- THREAD_RESUME (R108): Clearing a STOP bit in CORE_THR_CTL lets a stopped thread resume issue. -/
  | threadResume (r : Requester) (c : CoreId) (t : ThreadId)
  /-- GATE_ENABLE (R411): A write of EN = 1 to CLK_GATE_CTL enables the selected gate node under the function state machine. -/
  | gateEnable (r : Requester)
  /-- GATE_DISABLE (R411): A write of EN = 0 to CLK_GATE_CTL disables the selected gate node unless a child is not OFF or it is busy. -/
  | gateDisable (r : Requester) (newWork : Bool)
  /-- STACK_ENABLE (R424): Setting a bit of PWR_STK_CTL starts the stack: training and zeroing. -/
  | stackEnable (r : Requester) (j : StackId)
  /-- STACK_DISABLE (R424): Clearing a bit of PWR_STK_CTL stops the stack after its outstanding requests and removes its power. -/
  | stackDisable (r : Requester) (j : StackId)
  /-- FM_START (R414): A write of START to CLK_FM_CFG begins or restarts a frequency measurement. -/
  | fmStart (r : Requester) (value : Word)
  /-- RTE_TBL_DATA_WRITE (R313): A write to RTE_TBL_DATA sets the staged entry and advances INDEX, only while QUIESCED and DRAINED. -/
  | rteTblDataWrite (r : Requester) (value : Word)
  /-- RTE_AXIS_WRITE (R313): A write to RTE_AXIS_a sets the staged DL_POS, only while QUIESCED and DRAINED. -/
  | rteAxisWrite (r : Requester) (a : AxisId) (value : Word)
  /-- RESOLVE_COMMIT (R232): STEP_CTL RESOLVE = COMMIT on an UNCERTAIN module runs the commit action. -/
  | resolveCommit (r : Requester)
  /-- RESOLVE_ABORT (R232): STEP_CTL RESOLVE = ABORT on an UNCERTAIN module sets PHASE to FAILED and posts an ERROR event. -/
  | resolveAbort (r : Requester)
  /-- NOP (R111): Scalar instruction with no effect. -/
  | nop (c : CoreId) (t : ThreadId) (f : IFields)
  /-- ADD (R111): Scalar addition modulo 2^64. -/
  | add (c : CoreId) (t : ThreadId) (f : IFields)
  /-- ADDI (R111): Scalar addition of a sign-extended immediate. -/
  | addi (c : CoreId) (t : ThreadId) (f : IFields)
  /-- SUB (R111): Scalar subtraction. -/
  | sub (c : CoreId) (t : ThreadId) (f : IFields)
  /-- AND (R111): Scalar bitwise AND. -/
  | and (c : CoreId) (t : ThreadId) (f : IFields)
  /-- OR (R111): Scalar bitwise OR. -/
  | or (c : CoreId) (t : ThreadId) (f : IFields)
  /-- XOR (R111): Scalar bitwise XOR. -/
  | xor (c : CoreId) (t : ThreadId) (f : IFields)
  /-- SHL (R111): Scalar shift left. -/
  | shl (c : CoreId) (t : ThreadId) (f : IFields)
  /-- SHR (R111): Scalar logical shift right. -/
  | shr (c : CoreId) (t : ThreadId) (f : IFields)
  /-- SAR (R111): Scalar arithmetic shift right. -/
  | sar (c : CoreId) (t : ThreadId) (f : IFields)
  /-- LI (R111): Load a sign-extended immediate into a scalar register. -/
  | li (c : CoreId) (t : ThreadId) (f : IFields)
  /-- LSH (R111): Shift a register left by 30 bits and add an unsigned immediate. -/
  | lsh (c : CoreId) (t : ThreadId) (f : IFields)
  /-- MUL (R111): Low 64 bits of a scalar product. -/
  | mul (c : CoreId) (t : ThreadId) (f : IFields)
  /-- MULH (R111): High 64 bits of a signed scalar product. -/
  | mulh (c : CoreId) (t : ThreadId) (f : IFields)
  /-- DIVU (R111): Unsigned scalar division, all ones on division by zero. -/
  | divu (c : CoreId) (t : ThreadId) (f : IFields)
  /-- REMU (R111): Unsigned scalar remainder, the dividend on division by zero. -/
  | remu (c : CoreId) (t : ThreadId) (f : IFields)
  /-- SLT (R111): Signed set-less-than. -/
  | slt (c : CoreId) (t : ThreadId) (f : IFields)
  /-- SLTU (R111): Unsigned set-less-than. -/
  | sltu (c : CoreId) (t : ThreadId) (f : IFields)
  /-- SEL (R111): Scalar select by a condition register. -/
  | sel (c : CoreId) (t : ThreadId) (f : IFields)
  /-- LD8 (R111): Scalar load of 1 byte from the own slice. -/
  | ld8 (c : CoreId) (t : ThreadId) (f : IFields)
  /-- LD16 (R111): Scalar load of 2 bytes from the own slice. -/
  | ld16 (c : CoreId) (t : ThreadId) (f : IFields)
  /-- LD32 (R111): Scalar load of 4 bytes from the own slice. -/
  | ld32 (c : CoreId) (t : ThreadId) (f : IFields)
  /-- LD64 (R111): Scalar load of 8 bytes from the own slice. -/
  | ld64 (c : CoreId) (t : ThreadId) (f : IFields)
  /-- ST8 (R111): Scalar store of 1 byte to the own slice outside the program region. -/
  | st8 (c : CoreId) (t : ThreadId) (f : IFields)
  /-- ST16 (R111): Scalar store of 2 bytes to the own slice outside the program region. -/
  | st16 (c : CoreId) (t : ThreadId) (f : IFields)
  /-- ST32 (R111): Scalar store of 4 bytes to the own slice outside the program region. -/
  | st32 (c : CoreId) (t : ThreadId) (f : IFields)
  /-- ST64 (R111): Scalar store of 8 bytes to the own slice outside the program region. -/
  | st64 (c : CoreId) (t : ThreadId) (f : IFields)
  /-- BEQ (R111): Branch when equal. -/
  | beq (c : CoreId) (t : ThreadId) (f : IFields)
  /-- BNE (R111): Branch when not equal. -/
  | bne (c : CoreId) (t : ThreadId) (f : IFields)
  /-- BLT (R111): Branch when signed less. -/
  | blt (c : CoreId) (t : ThreadId) (f : IFields)
  /-- BGE (R111): Branch when signed greater or equal. -/
  | bge (c : CoreId) (t : ThreadId) (f : IFields)
  /-- BLTU (R111): Branch when unsigned less. -/
  | bltu (c : CoreId) (t : ThreadId) (f : IFields)
  /-- JAL (R111): Jump relative and link. -/
  | jal (c : CoreId) (t : ThreadId) (f : IFields)
  /-- JALR (R106): Jump to a register target and link, with alignment and range checks. -/
  | jalr (c : CoreId) (t : ThreadId) (f : IFields)
  /-- SRD (R111): Read a special value such as COMMITTED_STEP, time or coordinate. -/
  | srd (c : CoreId) (t : ThreadId) (f : IFields)
  /-- VLD (R112): Vector load of 256 B from the own slice. -/
  | vld (c : CoreId) (t : ThreadId) (f : IFields)
  /-- VST (R112): Vector store of 256 B to the own slice. -/
  | vst (c : CoreId) (t : ThreadId) (f : IFields)
  /-- VLD48 (R157): Load 64 M48 elements into a register pair. -/
  | vld48 (c : CoreId) (t : ThreadId) (f : IFields)
  /-- VST48 (R157): Store 64 M48 elements from a register pair. -/
  | vst48 (c : CoreId) (t : ThreadId) (f : IFields)
  /-- VADD (R145): Lane-wise addition with one rounding. -/
  | vadd (c : CoreId) (t : ThreadId) (f : IFields)
  /-- VSUB (R145): Lane-wise subtraction with one rounding. -/
  | vsub (c : CoreId) (t : ThreadId) (f : IFields)
  /-- VMUL (R145): Lane-wise multiplication with one rounding. -/
  | vmul (c : CoreId) (t : ThreadId) (f : IFields)
  /-- VFMA (R145): Lane-wise fused multiply-add with one rounding. -/
  | vfma (c : CoreId) (t : ThreadId) (f : IFields)
  /-- VMIN (R145): Lane-wise minimum. -/
  | vmin (c : CoreId) (t : ThreadId) (f : IFields)
  /-- VMAX (R145): Lane-wise maximum. -/
  | vmax (c : CoreId) (t : ThreadId) (f : IFields)
  /-- VABS (R145): Lane-wise absolute value. -/
  | vabs (c : CoreId) (t : ThreadId) (f : IFields)
  /-- VNEG (R145): Lane-wise negation. -/
  | vneg (c : CoreId) (t : ThreadId) (f : IFields)
  /-- VDIV (R145): Lane-wise division with one rounding. -/
  | vdiv (c : CoreId) (t : ThreadId) (f : IFields)
  /-- VSQRT (R145): Lane-wise square root with one rounding. -/
  | vsqrt (c : CoreId) (t : ThreadId) (f : IFields)
  /-- VCMP (R144): Lane-wise comparison giving all-ones or zero masks. -/
  | vcmp (c : CoreId) (t : ThreadId) (f : IFields)
  /-- VSEL (R144): Lane-wise select by a mask register. -/
  | vsel (c : CoreId) (t : ThreadId) (f : IFields)
  /-- VMASK (R144): Gather non-zero 32-bit lanes into a scalar bit mask. -/
  | vmask (c : CoreId) (t : ThreadId) (f : IFields)
  /-- VBCAST (R144): Broadcast a scalar to every 32-bit lane. -/
  | vbcast (c : CoreId) (t : ThreadId) (f : IFields)
  /-- VMOV (R144): Copy a vector register. -/
  | vmov (c : CoreId) (t : ThreadId) (f : IFields)
  /-- VCVT (R146): Convert between formats under R46, recording carrier status. -/
  | vcvt (c : CoreId) (t : ThreadId) (f : IFields)
  /-- VQMX (R144): Quantise 64 binary32 lanes to two MX blocks of element codes. -/
  | vqmx (c : CoreId) (t : ThreadId) (f : IFields)
  /-- VQSC (R144): Compute the two MX scale bytes of 64 binary32 lanes. -/
  | vqsc (c : CoreId) (t : ThreadId) (f : IFields)
  /-- VIADD (R147): Saturating SSI32 lane addition recording SPOILED. -/
  | viadd (c : CoreId) (t : ThreadId) (f : IFields)
  /-- VTUNE (R150): Compute the tuning word of 64 SSI32 lanes. -/
  | vtune (c : CoreId) (t : ThreadId) (f : IFields)
  /-- VCHKNF (R144): Mark non-finite lanes in a scalar mask and optionally record CNF. -/
  | vchknf (c : CoreId) (t : ThreadId) (f : IFields)
  /-- VCSR (R149): Read and optionally clear the core's carrier status. -/
  | vcsr (c : CoreId) (t : ThreadId) (f : IFields)
  /-- VRSUM (R155): Row sum in the reference order. -/
  | vrsum (c : CoreId) (t : ThreadId) (f : IFields)
  /-- VRDOT (R155): Row sum of products in the reference order. -/
  | vrdot (c : CoreId) (t : ThreadId) (f : IFields)
  /-- VRMAX (R155): Row maximum. -/
  | vrmax (c : CoreId) (t : ThreadId) (f : IFields)
  /-- VRAMAX (R155): Row maximum of absolute values. -/
  | vramax (c : CoreId) (t : ThreadId) (f : IFields)
  /-- VLUT (R152): Evaluate a function table per lane. -/
  | vlut (c : CoreId) (t : ThreadId) (f : IFields)
  /-- VLUTG (R153): Evaluate a derivative table times the upstream gradient. -/
  | vlutg (c : CoreId) (t : ThreadId) (f : IFields)
  /-- VLUTLD (R154): Start loading one function table into a slot. -/
  | vlutld (c : CoreId) (t : ThreadId) (f : IFields)
  /-- VLUTLD_DONE (R154): A table load completes; the slot becomes valid or invalid with a step fault. -/
  | vlutldDone (c : CoreId) (slot : SlotId)
  /-- VSRADD (R158): Add a binary32 update to M48 masters with stochastic rounding. -/
  | vsradd (c : CoreId) (t : ThreadId) (f : IFields)
  /-- VNORM64 (R159): Add rounded scaled squares of lanes to an int64 sum. -/
  | vnorm64 (c : CoreId) (t : ThreadId) (f : IFields)
  /-- ALOAD (R76): Issue a stationary-tile load into a partition queue. -/
  | aload (c : CoreId) (t : ThreadId) (f : IFields)
  /-- ALOAD_START (R78): An ALOAD leaves the queue and begins writing the shadow tile once earlier swaps are made. -/
  | aloadStart (c : CoreId) (p : PartId)
  /-- ALOAD_DONE (R115): The last shadow row and scales are written and the ALOAD completes. -/
  | aloadDone (c : CoreId) (p : PartId)
  /-- ASTREAM (R73): Issue a pass into a partition queue after claim and field checks. -/
  | astream (c : CoreId) (t : ThreadId) (f : IFields)
  /-- STREAM_SCALE_READ (R80): The MX stream scales of an ASTREAM are read once a scale-buffer half is free. -/
  | streamScaleRead (c : CoreId) (p : PartId)
  /-- ASTREAM_ROW_ISSUE (R72): One m-row of a pass issues into the array when its holds are satisfied. -/
  | astreamRowIssue (c : CoreId) (p : PartId) (u : Option Parity)
  /-- ASTREAM_ROW_WRITE (R81): An issued row writes its accumulator entries and the in-flight counter falls. -/
  | astreamRowWrite (c : CoreId) (p : PartId) (e : BankErrs)
  /-- ADRAIN (R85): Issue a drain of a bank range into a partition queue. -/
  | adrain (c : CoreId) (t : ThreadId) (f : IFields)
  /-- ADRAIN_START (R88): A drain leaves the queue and begins reading entries once the in-flight counter is zero. -/
  | adrainStart (c : CoreId) (p : PartId)
  /-- DRAIN_OUTPUT_WRITE (R86): A converted drain output reaches the slice, recording carrier status and flags. -/
  | drainOutputWrite (c : CoreId) (p : PartId) (e : BankErr)
  /-- AMAX_MERGE (R87): The drain merges its amax into the slice word and completes. -/
  | amaxMerge (c : CoreId) (p : PartBank)
  /-- AFLAG (R73): Issue a flag read of a partition into its queue. -/
  | aflag (c : CoreId) (t : ThreadId) (f : IFields)
  /-- AFLAG_DONE (R74): After earlier operations complete, the flags are written to the register and optionally cleared. -/
  | aflagDone (c : CoreId) (p : PartId)
  /-- ASEED (R90): Issue a seed of binary32 values into a wide bank. -/
  | aseed (c : CoreId) (t : ThreadId) (f : IFields)
  /-- ASEED_START (R90): An ASEED leaves the queue and begins reading its values. -/
  | aseedStart (c : CoreId) (p : PartId)
  /-- ASEED_DONE (R90): The last seeded entry is written and the ASEED completes. -/
  | aseedDone (c : CoreId) (p : PartBank)
  /-- DRONE_BEAT (R97): An idle issue slot is filled with a current-holding drone beat. -/
  | droneBeat (c : CoreId) (p : PartId)
  /-- SOFT_START_LEVEL_TIMER (R98): The soft-start level timer expires and the level rises or the array becomes ACTIVE. -/
  | softStartLevelTimer (c : CoreId)
  /-- DRONE_MAX_TIMER (R98): The DRONE_MAX timer expires and ramp-down starts. -/
  | droneMaxTimer (c : CoreId)
  /-- RAMP_DOWN_LEVEL_TIMER (R98): The ramp-down level timer expires and the level falls or the array goes COLD. -/
  | rampDownLevelTimer (c : CoreId)
  /-- ARR_CORE_FAULT (R95): A drain-path fault stops the whole core, discarding queues. -/
  | arrCoreFault (c : CoreId) (k : ArrFault)
  /-- MOVE (R116): Copy a move descriptor into the move engine queue after checks. -/
  | move (c : CoreId) (t : ThreadId) (f : IFields)
  /-- MOVE_START (R125): A queued move begins running when one of the 16 run slots is free. -/
  | moveStart (c : CoreId)
  /-- MOVE_COMPLETE (R127): A move completes, updating its wait counter and ERR bit. -/
  | moveComplete (c : CoreId) (slot : SlotId)
  /-- WAIT (R129): Proceed when a wait counter is at or below the threshold and return its ERR bit. -/
  | wait (c : CoreId) (t : ThreadId) (f : IFields)
  /-- WAITRC (R129): Proceed when a receive counter reaches the amount and subtract it. -/
  | waitrc (c : CoreId) (t : ThreadId) (f : IFields)
  /-- BAR (R131): Arrive at a core barrier, releasing all when the count is reached. -/
  | bar (c : CoreId) (t : ThreadId) (f : IFields)
  /-- GBAR (R132): Arrive at a group barrier; the core's arrival is sent when enough threads arrive. -/
  | gbar (c : CoreId) (t : ThreadId) (f : IFields)
  /-- GBAR_RELEASE (R132): Every core of the group has arrived and waiting threads are released. -/
  | gbarRelease (g : SlotId)
  /-- TSTART (R129): Start an IDLE thread at an entry with an argument. -/
  | tstart (c : CoreId) (t : ThreadId) (f : IFields)
  /-- TEND (R129): The thread enters ENDING. -/
  | tend (c : CoreId) (t : ThreadId) (f : IFields)
  /-- STEPFLT (R129): Set the core's step-fault bit and post an ERROR event with a code. -/
  | stepflt (c : CoreId) (t : ThreadId) (f : IFields)
  /-- EVNT (R129): Post a program NOTICE or TRACE event. -/
  | evnt (c : CoreId) (t : ThreadId) (f : IFields)
  /-- CSIG (R323): Release a collective schedule entry for this core. -/
  | csig (c : CoreId) (t : ThreadId) (f : IFields)
  /-- CORE_FAULT_STATE (R139): A parity or sequencing fault in the issue stage or move engine puts the core in its fault state. -/
  | coreFaultState (c : CoreId) (u : CoreUnit)
  /-- CORE_SELFTEST_DONE (R95): The core and array self-test after reset ends, leaving the core ready or in its fault state. -/
  | coreSelftestDone (c : CoreId) (coreOk arrOk : Bool)
  /-- SC_CHAIN_BEAT (R332): A chain beat of a privileged channel is combined with the local beat and sent on or written. -/
  | scChainBeat
  /-- SC_RETURN_BEAT (R332): A return beat is written into the local buffer and relayed. -/
  | scReturnBeat
  /-- ATOMIC_ADD (R175): The logic die adds SSI32 elements and tuning words, with saturation and guard check. -/
  | atomicAdd (c : CoreId) (slot : SlotId)
  /-- ATOMIC_MAX (R175): The logic die writes the elementwise signed maximum. -/
  | atomicMax (c : CoreId) (slot : SlotId)
  /-- ATOMIC_OR (R175): The logic die writes the bitwise OR of each word. -/
  | atomicOr (c : CoreId) (slot : SlotId)
  /-- CONTRIB_RX (R178): The home die counts a contribution, setting FULL and sending BUCKET_FULL, or EXCESS. -/
  | contribRx (c : CoreId) (slot : SlotId)
  /-- BUCKET_FULL (R178): A link sequencer receives BUCKET_FULL for a bucket and holds it for its WAIT_FULL entry. -/
  | bucketFull (b : Fin 4095)
  /-- PATROL_SCRUB (R183): A patrol scrub read corrects and writes back a location of SRAM or a stack. -/
  | patrolScrub (loc : Nat) (upset : Option EccKind)
  /-- CE_WINDOW_END (R182): A corrected-error counting window ends while scrub is off. -/
  | ceWindowEnd (j : Option StackId)
  /-- STACK_TEMP_CHANGE (R184): A stack crosses 85 °C or 95 °C, changing refresh rate or posting a WARNING. -/
  | stackTempChange (j : StackId) (temp : Byte)
  /-- BRIDGE_REPLAY (R186): A bridge flit fails CRC and is replayed; 16 failures take the data lanes down. -/
  | bridgeReplay
  /-- BRIDGE_TRAIN_LOSS (R186): The bridge data lanes lose training and go down with a FATAL event. -/
  | bridgeTrainLoss
  /-- BRIDGE_TRAINED (R431): The bridge data lanes finish training during start-up. -/
  | bridgeTrained
  /-- HEARTBEAT_SEND (R18): The lead sends a heartbeat with the owner epoch every 10 µs. -/
  | heartbeatSend
  /-- HEARTBEAT_RX (R18): The follower receives a heartbeat, echoes it and compares the epoch. -/
  | heartbeatRx
  /-- ECHO_RX (R18): The lead receives a heartbeat echo. -/
  | echoRx
  /-- HB_TIMEOUT (R18): No heartbeat or echo for 100 µs sets HB_LOST and enters HELD. -/
  | hbTimeout (h : HalfId)
  /-- HB_FIRST_TIMEOUT (R19): No first heartbeat or echo within 250 ms of release sets HB_LOST and enters HELD. -/
  | hbFirstTimeout (h : HalfId)
  /-- FORWARDED_COMMAND (R16): The follower receives a forwarded critical command and executes or rejects it by epoch. -/
  | forwardedCommand
  /-- MIRROR_ACK (R364): The follower acknowledges a new owner record mirror and the change takes effect. -/
  | mirrorAck
  /-- MIRROR_TIMEOUT (R369): The follower has not acknowledged a mirror within 100 µs and the half enters HELD. -/
  | mirrorTimeout
  /-- LEASE_EXPIRE (R365): The lease deadline passes and the module becomes UNOWNED with LAPSED set. -/
  | leaseExpire
  /-- OPEN (R219): The STEP block starts a new window or re-tune attempt, clearing faults and accounting. -/
  | openStep
  /-- MICRO (R220): The STEP block advances MICRO and the sequencers loop to LOOP. -/
  | micro
  /-- MUTE (R222): The STEP block samples and clears the mute causes and sends the mute vote vector. -/
  | mute
  /-- STRUM (R233): The STEP block samples the strum causes and sends the strum vote vector. -/
  | strum
  /-- STEP_ACTION_END (R216): A step action ends; STATUS and counters are written and rc[STEP_RC] rises. -/
  | stepActionEnd
  /-- MUTE_VOTE_TIMEOUT (R224): The mute vote timer expires and the attempt counts as muted. -/
  | muteVoteTimeout
  /-- STRUM_VOTE_TIMEOUT (R231): The strum vote timer expires and the module goes FAILED or UNCERTAIN. -/
  | strumVoteTimeout
  /-- COMMIT_ACTION_END (R229): The commit engine finishes the descriptors and the counters, record and PHASE IDLE are written. -/
  | commitActionEnd
  /-- RS_RUN_START (R329): A ring reduce-scatter run starts and injects the chain that begins at this module. -/
  | rsRunStart (a : AxisId)
  /-- AG_RUN_START (R331): A multicast all-gather run starts and sends this module's part. -/
  | agRunStart (a : AxisId)
  /-- SC_RUN_START (R332): A privileged-channel run starts on the scalar sequencer. -/
  | scRunStart
  /-- ENTRY_TIMEOUT (R336): A run still running after ENTRY_TIMEOUT ends short. -/
  | entryTimeout (q : Fin 4)
  /-- DRAIN_TIMEOUT (R336): DRAIN_TIMEOUT after a step action's release ends every pending entry short. -/
  | drainTimeout
  /-- PACKET_INJECT (R308): A bulk request packet is injected once its rate-limiter bucket holds tokens. -/
  | packetInject (h : HalfId)
  /-- PACKET_ROUTE (R298): A packet at a router is ejected, routed to a productive port, or dropped. -/
  | packetRoute (i : Nat)
  /-- PACKET_ADVANCE (R294): A packet takes its hop once the downstream VC has credits for it. -/
  | packetAdvance (i : Nat)
  /-- PUT_DATA_RX (R287): The target checks and writes a PUT_DATA packet and answers ACK or NACK. -/
  | putDataRx
  /-- GET_REQ_RX (R288): The target answers a GET_REQ with GET_RESP or NACK. -/
  | getReqRx
  /-- GET_RESP_RX (R288): The requester writes a GET_RESP and counts it. -/
  | getRespRx
  /-- ACK_RX (R287): The source counts an ACK, applies any echo, and sends NOTIFY or completes. -/
  | ackRx
  /-- NACK_RX (R287): The source counts a NACK, or schedules a GET retry on BUSY. -/
  | nackRx
  /-- NOTIFY_RX (R124): The target increments the named receive counter and answers ACK. -/
  | notifyRx
  /-- CHUNK_RX (R330): A link adder checks, adds and forwards or writes a carrier chunk. -/
  | chunkRx (l : LinkId)
  /-- MCAST_RX (R304): A link interface writes a multicast payload and forwards it. -/
  | mcastRx (l : LinkId)
  /-- MGMT_RX (R284): A management packet from a neighbour reaches the management controller. -/
  | mgmtRx (l : LinkId)
  /-- MSG_TIMEOUT (R291): A PUT or GET message not complete after MSG_TIMEOUT completes with an error. -/
  | msgTimeout (c : CoreId) (slot : SlotId)
  /-- GET_RETRY_TIMER (R288): After GET_RETRY a GET_REQ refused BUSY is sent again. -/
  | getRetryTimer (c : CoreId) (slot : SlotId)
  /-- RATE_INCREASE_TIMER (R308): AI_PERIOD without echo raises a destination's rate by AI_STEP. -/
  | rateIncreaseTimer (h : HalfId) (dest : Fin 6144)
  /-- FABRIC_QUIESCE (R311): The router stops starting new messages and runs and becomes QUIESCED. -/
  | fabricQuiesce (hd : Head)
  /-- FABRIC_RESUME (R311): The router returns to RUN, applying staged tables if drained. -/
  | fabricResume (hd : Head)
  /-- LINK_GROUP_RX (R262): A link group arrives and is accepted, NAKed or acts on ACK, NAK, credit and rate bits. -/
  | linkGroupRx (l : LinkId) (ctl : BitVec 128) (flits : List (BitVec 512))
  /-- LINK_GROUP_SEND (R262): A link sends or resends a group when its replay buffer has room. -/
  | linkGroupSend (l : LinkId)
  /-- LINK_ACK_TIMER (R262): The receiver sends an ACK at least every 0.25 µs. -/
  | linkAckTimer (l : LinkId)
  /-- LANE_FAIL (R263): A lane loses lock or exceeds FEC errors, and the link degrades or goes DOWN. -/
  | laneFail (l : LinkId) (lane : SlotId)
  /-- SHIFT_COMPLETE (R266): A rate change or lane degrade completes and held groups are resent. -/
  | shiftComplete (l : LinkId) (ok : Bool)
  /-- LOWRATE_IDLE_EXPIRE (R266): Both ends request low rate and LOWRATE_IDLE passes, starting a down-shift. -/
  | lowrateIdleExpire (l : LinkId)
  /-- TRAIN_LOCK (R267): Link lanes lock with at least 8 good and the link enters IDENT. -/
  | trainLock (l : LinkId) (good : BitVec 16)
  /-- TRAIN_LOCK_TIMEOUT (R267): No lock within 100 ms records LAST_FAIL and schedules a retry. -/
  | trainLockTimeout (l : LinkId) (why : TrainFail)
  /-- TRAIN_RETRY_TIMER (R267): The 1 ms retry or DOWN timer expires and training restarts. -/
  | trainRetryTimer (l : LinkId)
  /-- IDENT_SEND_TIMER (R267): An IDENT is sent every 10 µs during the identity exchange. -/
  | identSendTimer (l : LinkId)
  /-- IDENT_RX (R269): A peer IDENT arrives and is checked, or starts a re-exchange. -/
  | identRx (l : LinkId) (id : Ident)
  /-- VERDICT_RX (R269): A peer VERDICT arrives and the link goes ACTIVE, QUARANTINE or back to TRAINING. -/
  | verdictRx (l : LinkId) (reason version : Byte)
  /-- IDENT_TIMEOUT (R267): No peer IDENT within 1 ms returns the link to TRAINING. -/
  | identTimeout (l : LinkId)
  /-- LINK_SIGNAL_LOSS (R267): Loss of signal for 10 µs takes the link DOWN. -/
  | linkSignalLoss (l : LinkId)
  /-- PARK_DRAINED (R277): A parking link's replay buffer empties or 100 µs passes and the link is PARKED. -/
  | parkDrained (l : LinkId)
  /-- PARK_NOTICE_RX (R267): A PARK notice from the peer puts the link in PEER_PARKED. -/
  | parkNoticeRx (l : LinkId)
  /-- PEER_LANES_ACTIVE (R267): The lanes of a parked peer become active and the link trains. -/
  | peerLanesActive (l : LinkId)
  /-- LINK_PARK (R277): Command that parks the named links. -/
  | linkPark (hd : Head) (links : Byte)
  /-- LINK_REJOIN (R275): Command that opens axis bypasses and trains the named links. -/
  | linkRejoin (hd : Head) (axes links : Byte)
  /-- CLAIM (R365): Command that takes or re-takes ownership. -/
  | claim (hd : Head) (leaseS : BitVec 16)
  /-- RENEW (R366): Command that restarts the owner lease. -/
  | renew (hd : Head)
  /-- HANDOVER (R365): Command that passes ownership to another open session. -/
  | handover (hd : Head) (session : DWord)
  /-- RELEASE (R365): Command that gives up ownership. -/
  | release (hd : Head)
  /-- RECOVER (R367): Command that takes ownership with a recovery certificate. -/
  | recover (hd : Head) (sig : BitVec 768) (cert : List Byte) (signed : Option (List Byte))
  /-- LOAD_IMAGE (R380): Command that checks and applies a Forming Image. -/
  | loadImage (hd : Head) (addr : DWord) (len : Word) (signed : Option (List Byte))
  /-- START (R490): Command that starts named threads of named cores at ENTRY. -/
  | start (hd : Head) (cores : BitVec 96) (threads entry : Word) (arg : DWord)
  /-- HALT (R490): Command that stops issue on every running thread of named cores. -/
  | halt (hd : Head) (cores : BitVec 96)
  /-- RESET_CORE (R140): RESET command of kind core. -/
  | resetCore (hd : Head) (target : BitVec 16)
  /-- RESET_HALF (R426): RESET command of kind half. -/
  | resetHalf (hd : Head) (target : BitVec 16)
  /-- RESET_LINK (R276): RESET command of kind link. -/
  | resetLink (hd : Head) (target : BitVec 16)
  /-- RESET_MODULE_WARM (R426): RESET command of kind module warm. -/
  | resetModuleWarm (hd : Head) (target : BitVec 16)
  /-- HALF_RESET_END (R369): A half reset ends; the half restores the owner record and stays HELD. -/
  | halfResetEnd (h : HalfId)
  /-- SET_POWER_STATE_RUN (R420): Command that returns the module to Run. -/
  | setPowerStateRun (hd : Head)
  /-- SET_POWER_STATE_IDLE (R420): Command that moves the module to Idle. -/
  | setPowerStateIdle (hd : Head)
  /-- SET_POWER_STATE_REST (R420): Command that moves the module to Rest. -/
  | setPowerStateRest (hd : Head)
  /-- FUNCTION_STARTED (R423): A function's start completes and it is ON. -/
  | functionStarted (k : FuncId)
  /-- FUNCTION_START_FAILED (R423): A function's start fails and it returns to OFF with an ERROR event. -/
  | functionStartFailed (k : FuncId)
  /-- FUNCTION_STOPPED (R423): A function's stop completes and it goes OFF or restarts if enable is pending. -/
  | functionStopped (k : FuncId)
  /-- CLOCK_SELECT (R407): Command that selects the clock reference and fallback. -/
  | clockSelect (hd : Head) (source link fallback : Byte)
  /-- FW_UPDATE_BEGIN (R460): FW_UPDATE step that starts receiving a package. -/
  | fwUpdateBegin (hd : Head) (total : Word)
  /-- FW_UPDATE_DATA (R460): FW_UPDATE step that writes package bytes at SEC_FWU_NEXT. -/
  | fwUpdateData (hd : Head) (off : Word) (data : List Byte)
  /-- FW_UPDATE_COMMIT (R460): FW_UPDATE step that verifies and commits the package. -/
  | fwUpdateCommit (hd : Head) (byFirmware byAnchor : Option (List Byte))
  /-- FW_UPDATE_ABORT (R460): FW_UPDATE step that discards staged bytes. -/
  | fwUpdateAbort (hd : Head)
  /-- DEBUG_ENABLE (R467): DEBUG_ENABLE with ON = 1 verifies a token and turns debug mode on. -/
  | debugEnable (hd : Head) (token : List Byte) (signed : Option (List Byte))
  /-- DEBUG_DISABLE (R468): DEBUG_ENABLE with ON = 0 turns debug mode off. -/
  | debugDisable (hd : Head)
  /-- DEBUG_EXPIRE (R468): The debug DURATION ends and debug mode turns off. -/
  | debugExpire
  /-- WRITE_REG (R359): Command that performs register write pairs in order. -/
  | writeReg (hd : Head) (pairs : List (Word × Word))
  /-- WRITE_MEM (R362): Command that writes module memory as an owner write. -/
  | writeMem (hd : Head) (addr : DWord) (data : List Byte)
  /-- QP_CREATE (R348): Command that creates a queue pair and initialises its ring. -/
  | qpCreate (hd : Head) (a : QpArgs)
  /-- QP_DESTROY (R349): Command that destroys a queue pair. -/
  | qpDestroy (hd : Head) (qpn : Word)
  /-- MR_REG (R347): Command that registers a memory region. -/
  | mrReg (hd : Head) (addr len : DWord) (access : Byte)
  /-- MR_DEREG (R347): Command that removes a memory region. -/
  | mrDereg (hd : Head) (rkey : Word)
  /-- READ_REG (R359): Command that returns register values. -/
  | readReg (hd : Head) (addr : Word) (count : BitVec 16)
  /-- READ_MEM (R359): Command that returns memory bytes. -/
  | readMem (hd : Head) (addr : DWord) (len : BitVec 16)
  /-- STATUS (R359): Command that returns module status words and address. -/
  | status (hd : Head)
  /-- SUBSCRIBE (R443): Command that sets event classes and source filter for the session. -/
  | subscribe (hd : Head) (classes : Byte) (source : BitVec 16)
  /-- UNSUBSCRIBE (R359): Command that stops event streaming to the session. -/
  | unsubscribe (hd : Head)
  /-- ATTEST (R462): Command that returns a signed attestation report. -/
  | attest (hd : Head) (nonce : BitVec 384) (draw : Nat)
  /-- HELLO (R352): A HELLO frame starts session setup and is answered with HELLO_REPLY. -/
  | hello (eth : EthHead) (addr : AddrPair) (port : BitVec 16) (data : List Byte) (draw : Nat)
  /-- KEY (R352): A KEY fragment is taken; the complete key is verified and KEY_REPLY sent. -/
  | key (eth : EthHead) (addr : AddrPair) (port : BitVec 16) (data spki : List Byte) (signed : Option (List Byte))
  /-- COMMAND (R360): A tagged COMMAND frame is checked and queued or answered. -/
  | command (ip : IpIn) (udp : UdpData)
  /-- CLOSE (R355): A CLOSE frame from the client closes the session. -/
  | close (f : UdpIn)
  /-- SESSION_SETUP_TIMEOUT (R352): A setup not finished within 1 s frees its slot. -/
  | sessionSetupTimeout (slot : SlotId)
  /-- SESSION_IDLE_TIMEOUT (R355): No valid frame for 120 s closes the session. -/
  | sessionIdleTimeout (slot : SlotId)
  /-- ROCE_SEND (R348): A RoCE SEND is written to the next free ring slot or answered RNR NAK. -/
  | roceSend (b : RoceHead) (pos : RocePos) (data : List Byte)
  /-- ROCE_RDMA_WRITE (R347): A RoCE RDMA WRITE is checked and written into a registered region. -/
  | roceRdmaWrite (b : RoceHead) (pos : RocePos) (va : DWord) (rkey len : Word) (data : List Byte)
  /-- ROCE_RDMA_READ (R347): A RoCE RDMA READ request is answered from a registered region. -/
  | roceRdmaRead (b : RoceHead) (va : DWord) (rkey len : Word)
  /-- ROCE_CNP_RX (R345): A received CNP halves the queue pair's READ response rate. -/
  | roceCnpRx (b : RoceHead) (payload : List Byte)
  /-- ROCE_RATE_RECOVER (R345): Every 55 µs without a CNP the response rate rises by 1/16 of the port rate. -/
  | roceRateRecover (qpn : BitVec 24)
  /-- PAUSE_FRAME_RX (R345): A received PFC pause frame pauses a priority or is ignored and counted. -/
  | pauseFrameRx (prio : Fin 8) (xoff : Bool)
  /-- ARP_FRAME (R342): An ARP frame is answered. -/
  | arpFrame (from_ target : BitVec 32)
  /-- NEIGHBOR_DISCOVERY (R343): A Neighbor Discovery or SLAAC frame is processed. -/
  | neighborDiscovery (m : NdMsg)
  /-- ICMP_ECHO (R342): An ICMP or ICMPv6 echo request is answered. -/
  | icmpEcho (ip : IpIn) (data : List Byte)
  /-- DHCP_MESSAGE (R343): A DHCPv4 message sets the IPv4 address, closing bound sessions on change. -/
  | dhcpMessage (m : DhcpIn)
  /-- HOST_PORT_TRAINED (R341): The host port finishes training its lanes and comes up. -/
  | hostPortTrained (lanes : Byte)
  /-- HOST_TRAIN_TIMEOUT (R341): Fewer than 8 lanes train within 500 ms and the port falls back to 4 lanes. -/
  | hostTrainTimeout (lanes : Byte)
  /-- HOST_LANE_FAIL (R341): A host lane fails and the port goes down and retrains. -/
  | hostLaneFail
  /-- PWR_EN_RISE (R430): PWR_EN rises and the power stage starts after qualification. -/
  | pwrEnRise
  /-- PWR_EN_FALL (R422): PWR_EN falls and the module enters Off. -/
  | pwrEnFall
  /-- MOD_RESET_N_LOW (R425): MOD_RESET_N held low for 1 µs gives a module warm reset. -/
  | modResetNLow
  /-- RESET_RELEASE (R431): PWR_GOOD and MOD_RESET_N are high and start-up begins, reading straps and roles. -/
  | resetRelease (strap : BitVec 10) (pkg0 pkg1 : Bool)
  /-- INPUT_VOLTAGE_CHANGE (R417): The input leaves or returns to 46–56 V and a WARNING or NOTICE is posted. -/
  | inputVoltageChange (mv : BitVec 16)
  /-- STANDBY_LOSS (R422): The input falls below 30 V and the module enters Off. -/
  | standbyLoss (mv : BitVec 16)
  /-- TRIP (R434): An over-temperature, over-current or under-voltage trip removes the rails and latches the cause. -/
  | trip (causes : List TripCause)
  /-- POWER_WARN_CHECK (R432): The 100 ms average input power exceeds POWER_WARN and a WARNING is posted. -/
  | powerWarnCheck (watts : BitVec 16)
  /-- DIE_TEMP_WARN (R432): A compute die exceeds DIE_WARN and a WARNING is posted. -/
  | dieTempWarn (h : HalfId) (temp : Byte)
  /-- BOOT_SLOT_CHECK (R455): The boot ROM verifies a firmware slot and starts it or tries the other. -/
  | bootSlotCheck (v : SlotCheck)
  /-- CORE_FW_LOAD (R457): The core firmware is loaded and its digest compared. -/
  | coreFwLoad (agree : Bool) (digest : BitVec 384)
  /-- STARTUP_COMPLETE (R431): Start-up completes, Aukor is served, fuses advance and a NOTICE reports the reset cause. -/
  | startupComplete
  /-- XTAL_STABLE (R403): The crystal is counted stable and the root PLLs take it and slew to 228. -/
  | xtalStable
  /-- XTAL_TIMEOUT (R403): The crystal is not stable within 50 ms and the module coasts. -/
  | xtalTimeout
  /-- SOURCE_FAIL (R404): The selected reference fails and the PLLs fall back to the crystal or coast. -/
  | sourceFail
  /-- SLEW_DONE (R402): A root PLL slew or input switch completes, applying any deferred selection. -/
  | slewDone
  /-- BRANCH_CLOCK_LOSS (R413): A monitor finds a branch clock off frequency and the matching fault follows. -/
  | branchClockLoss (b : ClkBranch)
  /-- PLL_LOCK_LOSS (R413): A root PLL loses lock, setting PLL_FAULT and coasting. -/
  | pllLockLoss (h : HalfId)
  /-- FM_DONE (R414): The frequency meter's gate ends and COUNT and DONE are set. -/
  | fmDone (count : BitVec 30)
  /-- FM_GATE_ABSENT (R414): The gate domain is absent for 1 ms and the meter sets ERR. -/
  | fmGateAbsent
  /-- RECORD_ACCEPT (R442): The lead accepts an event record into the ring or trace buffer. -/
  | recordAccept (block inst : Byte)
  /-- COALESCE_WINDOW_END (R444): A coalescing window closes and a record with REPEAT is posted if any matched. -/
  | coalesceWindowEnd (block inst : Byte) (code : BitVec 16)
  /-- GAP_TIMER (R445): 10 ms after a loss with no later record, the source posts GAP records. -/
  | gapTimer (block inst : Byte)
  /-- EVENT_STREAM_SEND (R443): Matching records are sent to a subscribing session in an EVENT frame within the share. -/
  | eventStreamSend (slot : SlotId)
  /-- TELEMETRY_SAMPLE (R450): Every TELE_PERIOD ms a telemetry TRACE record is posted. -/
  | telemetrySample
  /-- ENTDAA (R451): I3C CCC that assigns a dynamic address. -/
  | entdaa (a : DynAddr)
  /-- SETDASA (R451): I3C CCC that sets the dynamic address from the static one. -/
  | setdasa (a : DynAddr)
  /-- RSTDAA (R451): I3C CCC that resets the dynamic address. -/
  | rstdaa
  /-- GETPID (R451): I3C CCC that returns the provisional ID. -/
  | getpid
  /-- GETBCR (R451): I3C CCC that returns the bus characteristics register. -/
  | getbcr
  /-- GETDCR (R451): I3C CCC that returns the device characteristics register. -/
  | getdcr
  /-- GETSTATUS (R451): I3C CCC that returns device status. -/
  | getstatus
  /-- GETMWL (R451): I3C CCC that returns the maximum write length. -/
  | getmwl
  /-- I3C_PRIVATE_WRITE (R451): An I3C private write of a control-space address selects the register to read. -/
  | i3cPrivateWrite (data : List Byte)
  /-- I3C_PRIVATE_READ (R451): An I3C private read returns the selected register, clearing RC fields. -/
  | i3cPrivateRead
  /-- FETCH_PROT (R106): A thread that would fetch from a PC outside its core's program region raises PROT, enters FAULTED, sets the step-fault bit and posts an ERROR event. -/
  | fetchProt (c : CoreId) (t : ThreadId)
  /-- SIDEBAND_TRAINED (R19): The bridge sideband lanes finish training after reset release and SIDEBAND_UP is set, letting heartbeats and the owner mirror pass. -/
  | sidebandTrained
  /-- HOST_FRAME_DROP (R342): A received host-port frame that no protocol step takes is dropped and counted, or, for an unsupported RoCE opcode on an existing queue pair, answered with NAK Invalid Request. -/
  | hostFrameDrop (k : DropKind)
  /-- REFERENCE_PRESENCE_CHANGE (R404): The crystal or the external reference on REFCLK becomes present or absent while it is not the root PLL input, updating XTAL_OK or REFCLK_OK. -/
  | referencePresenceChange (k : RefSrc) (present : Bool)
  deriving DecidableEq, Repr

end Sys2Proof
end

