-- ==== Sys2Proof/Config.lean ====
section
/-! DEFINITION. What an implementation fixes and the values the manual leaves open. A constant without a body is a free
value: nothing in Lean can evaluate it, so a statement holds whatever it is (log 4). -/

namespace Sys2Proof.Config

/-- SHA-384 of a byte string: a named standard the manual does not restate (R455, R461; log 7). -/
opaque sha384 : List Byte → BitVec 384

/-- The random challenge of a debug unlock, the n-th drawn (R466; log 4). -/
opaque freeChallenge : Nat → BitVec 128

/-- A byte that an uncorrectable upset leaves in memory, the n-th such byte (R181, R185; log 4). -/
opaque freeByte : Nat → Byte

/-- A session number or nonce that the module draws, the n-th drawn (R352; log 4). -/
opaque freeNonce : Nat → BitVec 256

/-- The public key of the ephemeral key pair that the module draws for a session, the n-th drawn (R352; log 7). -/
opaque freePoint : Nat → BitVec 776

/-- The x-coordinate of the ECDH shared point of the module's pair with this public key and the client's public key, a
named standard the manual does not restate (R353; log 7). -/
opaque ecdh : BitVec 776 → BitVec 776 → BitVec 384

/-- The device identity key's signature over a digest, made with the random number of an index (R352, R462; log 7). -/
opaque deviceSign : Nat → BitVec 384 → BitVec 768

/-- A value that the manual does not state, the n-th one met (log 4). -/
opaque freeWord : Nat → BitVec 64

/-- The flits that an ejection queue of the router holds; the manual compares its occupancy with a threshold and gives
no size (R306; log 4). -/
opaque ejectDepth : Nat

end Sys2Proof.Config
end

