-- ==== Sys2Proof/Machine/RegTable.lean ====
section
/-! DEFINITION. The control space: blocks (R23) and, for each register, its place, its access codes and its reset
value, as the register tables of the chapters give them (R25, R26, R103, R141, R164, R187 to R189, R237, R280, R281,
R317, R340, R371, R372, R399, R416, R436, R452, R471, R472). A reset that the tables give as Image is the value of R396
or of the row's own default (DESIGN CHOICE, log 6); Fused, Strap, Flash, Slot, Store and Kept values stand in State. -/

namespace Sys2Proof.Machine

/-- The blocks of the control space (R23). -/
inductive Block where
  | modB | own | sec | clk | pwr | evt | fim | hst | lnk | rte | col | stp | stk | brg | dbg | hlf | core | arr | vec | stkm | lnkj
  deriving DecidableEq, Repr

/-- A register or an array of `n` registers `stride` bytes apart: masks of its RW, W1C, RC and WO bits, the value at
reset, and the fields for which a write of 0 is ignored. -/
structure RegRow where
  name : String
  off : Nat
  n : Nat := 1
  stride : Nat := 4
  rw : Nat := 0
  w1c : Nat := 0
  rc : Nat := 0
  wo : Nat := 0
  reset : Nat := 0
  nz : List (Nat × Nat) := []
  deriving DecidableEq, Repr

/-- The registers of block MOD. -/
def rowsModB : List RegRow := [
  { name := "MOD_ID", off := 0x0, reset := 0x4B480576 },
  { name := "MOD_STEPPING", off := 0x4, reset := 0x4201 },
  { name := "MOD_SERIAL_LO", off := 0x8 },
  { name := "MOD_SERIAL_HI", off := 0xC },
  { name := "MOD_FW_VER", off := 0x10, reset := 0x308 },
  { name := "MOD_STAT", off := 0x14 },
  { name := "MOD_SCRATCH", off := 0x18, rw := 0xFFFFFFFF },
  { name := "MOD_CORE_MAP", off := 0x100, n := 96 }]

/-- The registers of block OWN. -/
def rowsOwn : List RegRow := [
  { name := "OWN_STAT", off := 0x0, w1c := 0x100 },
  { name := "OWN_EPOCH", off := 0x4 },
  { name := "OWN_LEASE", off := 0x8, rw := 0xFFF, reset := 0x1E, nz := [(11, 0)] },
  { name := "OWN_LEASE_LEFT", off := 0xC },
  { name := "OWN_KEYID_n", off := 0x10, n := 4 },
  { name := "OWN_SESSION", off := 0x20, reset := 0xFF },
  { name := "OWN_HELD_CAUSE", off := 0x24 },
  { name := "OWN_CLAIMS", off := 0x30, rc := 0xFFFFFFFF },
  { name := "OWN_HANDOVERS", off := 0x34, rc := 0xFFFFFFFF },
  { name := "OWN_LAPSES", off := 0x38, rc := 0xFFFFFFFF },
  { name := "OWN_RECOVERS", off := 0x3C, rc := 0xFFFFFFFF },
  { name := "OWN_REFUSED", off := 0x40, rc := 0xFFFFFFFF }]

/-- The registers of block SEC. -/
def rowsSec : List RegRow := [
  { name := "SEC_STAT", off := 0x0 },
  { name := "SEC_SVN", off := 0x4 },
  { name := "SEC_SLOT_VER", off := 0x8 },
  { name := "SEC_FWU_STAT", off := 0xC },
  { name := "SEC_FWU_NEXT", off := 0x10 },
  { name := "SEC_FWU_TOTAL", off := 0x14 },
  { name := "SEC_ANCHORS", off := 0x18 },
  { name := "SEC_AUTH_FAIL", off := 0x1C, rc := 0xFFFFFFFF },
  { name := "SEC_LOG_COUNT", off := 0x20 },
  { name := "SEC_LOG_SEL", off := 0x24, rw := 0x3F },
  { name := "SEC_LOG_DATA_n", off := 0x40, n := 16 },
  { name := "SEC_CERT_LEN", off := 0x80 },
  { name := "SEC_CERT_n", off := 0x1000, n := 1024 }]

/-- The registers of block CLK. -/
def rowsClk : List RegRow := [
  { name := "CLK_STAT", off := 0x0, reset := 0x3930 },
  { name := "CLK_SRC", off := 0x4 },
  { name := "CLK_FLAGS", off := 0x8 },
  { name := "CLK_GATE_SEL", off := 0x10, rw := 0x1FF },
  { name := "CLK_GATE_CTL", off := 0x14, rw := 0x1, reset := 0x1 },
  { name := "CLK_GATE_STAT", off := 0x18, reset := 0x2 },
  { name := "CLK_FM_CFG", off := 0x20, rw := 0x3FFFFFFF, wo := 0x80000000, reset := 0x11F4240, nz := [(19, 0)] },
  { name := "CLK_FM_RES", off := 0x24 },
  { name := "CLK_TIME_LO", off := 0x30 },
  { name := "CLK_TIME_HI", off := 0x34 },
  { name := "CLK_TIME_ADJ_LO", off := 0x38, wo := 0xFFFFFFFF },
  { name := "CLK_TIME_ADJ_HI", off := 0x3C, wo := 0xFFFFFFFF },
  { name := "CLK_SRC_LOSS", off := 0x40, rc := 0xFFFFFFFF },
  { name := "CLK_SWITCH", off := 0x44, rc := 0xFFFFFFFF }]

/-- The registers of block PWR. -/
def rowsPwr : List RegRow := [
  { name := "PWR_STAT", off := 0x0, reset := 0x200 },
  { name := "PWR_TRIP", off := 0x4, w1c := 0xF },
  { name := "PWR_RESET_CAUSE", off := 0x8 },
  { name := "PWR_INPUT", off := 0x10 },
  { name := "PWR_POWER", off := 0x14, rc := 0xFFFF0000 },
  { name := "PWR_ENERGY_LO", off := 0x18 },
  { name := "PWR_ENERGY_HI", off := 0x1C },
  { name := "PWR_TEMP", off := 0x20 },
  { name := "PWR_WARN_CFG", off := 0x24, rw := 0xFFFFFF00, reset := 0xBB86900, nz := [(31, 16)] },
  { name := "PWR_STK_CTL", off := 0x30, rw := 0xFFF, reset := 0xFFF },
  { name := "PWR_CORE_RST", off := 0x40, rc := 0xFFFFFFFF },
  { name := "PWR_HALF_RST", off := 0x44, rc := 0xFFFFFFFF },
  { name := "PWR_WARM_RST", off := 0x48, rc := 0xFFFFFFFF },
  { name := "PWR_TRIPS", off := 0x4C, rc := 0xFFFFFFFF }]

/-- The registers of block EVT. -/
def rowsEvt : List RegRow := [
  { name := "EVT_STAT", off := 0x0, reset := 0x1 },
  { name := "EVT_RING", off := 0x4, reset := 0x5003FFF8 },
  { name := "EVT_WR_MAIN", off := 0x8 },
  { name := "EVT_WR_RSV", off := 0xC },
  { name := "EVT_TRACE_IDX", off := 0x10, rw := 0xFFFFFFFF },
  { name := "EVT_CFG", off := 0x14, rw := 0x83FFFFFF, reset := 0xC803E8, nz := [(15, 0)] },
  { name := "EVT_LIMIT_0", off := 0x20, rw := 0xFFFFFFFF, reset := 0x40000A, nz := [(31, 16), (15, 0)] },
  { name := "EVT_LIMIT_1", off := 0x24, rw := 0xFFFFFFFF, reset := 0x40000A, nz := [(31, 16), (15, 0)] },
  { name := "EVT_LIMIT_2", off := 0x28, rw := 0xFFFFFFFF, reset := 0x200005, nz := [(31, 16), (15, 0)] },
  { name := "EVT_LIMIT_3", off := 0x2C, rw := 0xFFFFFFFF, reset := 0x4000064, nz := [(31, 16), (15, 0)] },
  { name := "EVT_TELE", off := 0x30, rw := 0xFFFF },
  { name := "EVT_ALERT", off := 0x34, w1c := 0x1 },
  { name := "EVT_DROP_c", off := 0x40, n := 4, rc := 0xFFFFFFFF },
  { name := "EVT_GAPS", off := 0x50, rc := 0xFFFFFFFF },
  { name := "EVT_COALESCED", off := 0x54, rc := 0xFFFFFFFF },
  { name := "EVT_LAST_FATAL_n", off := 0x80, n := 8 }]

/-- The registers of block FIM. -/
def rowsFim : List RegRow := [
  { name := "FIM_STAT", off := 0x0 },
  { name := "FIM_ERR", off := 0x4 },
  { name := "FIM_ERR_OFF", off := 0x8 },
  { name := "FIM_ID_LO", off := 0xC },
  { name := "FIM_ID_HI", off := 0x10 },
  { name := "FIM_HASH_n", off := 0x20, n := 12 },
  { name := "FIM_LOADS", off := 0x60, rc := 0xFFFFFFFF },
  { name := "FIM_FAILS", off := 0x64, rc := 0xFFFFFFFF },
  { name := "FIM_LOAD_TIME", off := 0x68 }]

/-- The registers of block HST. -/
def rowsHst : List RegRow := [
  { name := "HST_STAT", off := 0x0 },
  { name := "HST_CFG", off := 0x4, rw := 0xFF077703, reset := 0x8073702 },
  { name := "HST_MAC_LO", off := 0x8 },
  { name := "HST_MAC_HI", off := 0xC },
  { name := "HST_IPV4", off := 0x10, rw := 0xFFFFFFFF },
  { name := "HST_IPV4_PREFIX", off := 0x14, rw := 0x3F, reset := 0x18 },
  { name := "HST_AUKOR_PORT", off := 0x18, reset := 0x9FA7 },
  { name := "HST_SESS_SEL", off := 0x20, rw := 0xF },
  { name := "HST_SESS_STAT", off := 0x24 },
  { name := "HST_QP_SEL", off := 0x28, rw := 0xFF },
  { name := "HST_QP_STAT", off := 0x2C },
  { name := "HST_RX_DROP", off := 0x40, rc := 0xFFFFFFFF },
  { name := "HST_BADFRAME", off := 0x44, rc := 0xFFFFFFFF },
  { name := "HST_AUTH_FAIL", off := 0x48, rc := 0xFFFFFFFF },
  { name := "HST_REPLAY", off := 0x4C, rc := 0xFFFFFFFF },
  { name := "HST_ICRC_ERR", off := 0x50, rc := 0xFFFFFFFF },
  { name := "HST_PFC_RX", off := 0x54, rc := 0xFFFFFFFF },
  { name := "HST_PFC_TX", off := 0x58, rc := 0xFFFFFFFF },
  { name := "HST_CNP_TX", off := 0x5C, rc := 0xFFFFFFFF },
  { name := "HST_RNR_NAK", off := 0x60, rc := 0xFFFFFFFF },
  { name := "HST_FCS_ERR", off := 0x64, rc := 0xFFFFFFFF }]

/-- The registers of block LNK. -/
def rowsLnk : List RegRow := [
  { name := "LNK_STAT", off := 0x0 },
  { name := "LNK_LANE_MAP", off := 0x4 },
  { name := "LNK_PEER_SERIAL_LO", off := 0x8 },
  { name := "LNK_PEER_SERIAL_HI", off := 0xC },
  { name := "LNK_PEER_ID", off := 0x10, reset := 0xFFFFFFFF },
  { name := "LNK_PEER_VER", off := 0x14 },
  { name := "LNK_PEER_JOB", off := 0x18 },
  { name := "LNK_CFG", off := 0x20, rw := 0x1FF, reset := 0xA, nz := [(7, 0)] },
  { name := "LNK_TRAIN_STAT", off := 0x24 },
  { name := "LNK_CRC_ERR", off := 0x30, rc := 0xFFFFFFFF },
  { name := "LNK_REPLAY", off := 0x34, rc := 0xFFFFFFFF },
  { name := "LNK_FEC_CORR", off := 0x38, rc := 0xFFFFFFFF },
  { name := "LNK_FEC_UNCORR", off := 0x3C, rc := 0xFFFFFFFF },
  { name := "LNK_DOWN_CNT", off := 0x40, rc := 0xFFFFFFFF },
  { name := "LNK_LOST", off := 0x44, rc := 0xFFFFFFFF },
  { name := "LNK_QUAR_CNT", off := 0x48, rc := 0xFFFFFFFF },
  { name := "LNK_SHIFT_CNT", off := 0x4C, rc := 0xFFFFFFFF }]

/-- The registers of block RTE. -/
def rowsRte : List RegRow := [
  { name := "RTE_STAT", off := 0x0, reset := 0x5 },
  { name := "RTE_AXIS_a", off := 0x10, n := 3, rw := 0x3F },
  { name := "RTE_TBL_SEL", off := 0x20, rw := 0x1FFF },
  { name := "RTE_TBL_DATA", off := 0x24, rw := 0xFFFF },
  { name := "RTE_PKT_CFG", off := 0x30, rw := 0xFFFFF0F, reset := 0x640A08, nz := [(27, 16), (15, 8), (3, 0)] },
  { name := "RTE_CM_CFG", off := 0x34, rw := 0xFFF0FFFF, reset := 0x8010140A },
  { name := "RTE_AI_CFG", off := 0x38, rw := 0xFFFFFFFF, reset := 0x4000100 },
  { name := "RTE_RATE_SEL", off := 0x40, rw := 0x80001FFF },
  { name := "RTE_RATE", off := 0x44, reset := 0x10000 },
  { name := "RTE_UNDELIV_v", off := 0x50, n := 4, rc := 0xFFFFFFFF },
  { name := "RTE_CMARK", off := 0x60, rc := 0xFFFFFFFF },
  { name := "RTE_ECHO", off := 0x64, rc := 0xFFFFFFFF },
  { name := "RTE_NACK", off := 0x68, rc := 0xFFFFFFFF },
  { name := "RTE_TIMEOUT", off := 0x6C, rc := 0xFFFFFFFF },
  { name := "RTE_LATE", off := 0x70, rc := 0xFFFFFFFF },
  { name := "RTE_BADPKT", off := 0x74, rc := 0xFFFFFFFF },
  { name := "RTE_OCC_i", off := 0x80, n := 6 },
  { name := "RTE_PEAK_i", off := 0xA0, n := 6, rc := 0xFFFFFFFF }]

/-- The registers of block COL. -/
def rowsCol : List RegRow := [
  { name := "COL_STAT", off := 0x0, reset := 0xFFF0000 },
  { name := "COL_CFG", off := 0x4, rw := 0xFFFFFFFF, reset := 0x6400C8, nz := [(31, 16), (15, 0)] },
  { name := "COL_SCHED_OFF", off := 0x8 },
  { name := "COL_CTRL_OFF", off := 0xC },
  { name := "COL_LOST", off := 0x40 },
  { name := "COL_FAILED", off := 0x44 },
  { name := "COL_STALE", off := 0x48 },
  { name := "COL_RESIDUE", off := 0x4C },
  { name := "COL_SPOILED", off := 0x50 },
  { name := "COL_CSIG_XS", off := 0x54 },
  { name := "COL_RES_SRC", off := 0x58, reset := 0xFFF },
  { name := "COL_LOSS_SUM", off := 0x60 },
  { name := "COL_SEQ_STAT_s", off := 0x100, n := 7, stride := 16 },
  { name := "COL_SEQ_RX_s", off := 0x104, n := 7, stride := 16 },
  { name := "COL_SEQ_TX_s", off := 0x108, n := 7, stride := 16 }]

/-- The registers of block STEP. -/
def rowsStp : List RegRow := [
  { name := "STEP_STAT", off := 0x0, w1c := 0x80000000 },
  { name := "STEP_VOTE_STAT", off := 0x4 },
  { name := "STEP_CTL", off := 0x8, wo := 0x3 },
  { name := "STEP_CFG", off := 0xC },
  { name := "STEP_TIMEOUT", off := 0x10, rw := 0xFFFF, reset := 0x7D0, nz := [(15, 0)] },
  { name := "STEP_REC", off := 0x14 },
  { name := "STEP_COMMITTED_LO", off := 0x18, rw := 0xFFFFFFFF },
  { name := "STEP_COMMITTED_HI", off := 0x1C, rw := 0xFFFFFFFF },
  { name := "STEP_ATTEMPT", off := 0x20 },
  { name := "STEP_MICRO", off := 0x24 },
  { name := "STEP_BANK", off := 0x28, rw := 0xFFFF },
  { name := "STEP_MUTE_LOCAL", off := 0x30 },
  { name := "STEP_MUTE_JOB", off := 0x34 },
  { name := "STEP_STRUM_LOCAL", off := 0x38 },
  { name := "STEP_STRUM_JOB", off := 0x3C },
  { name := "STEP_NF_SRC", off := 0x40, reset := 0x7F },
  { name := "STEP_NF_BUCKET", off := 0x44, reset := 0xFFF },
  { name := "STEP_NF_INDEX", off := 0x48, reset := 0xFFFFFFFF },
  { name := "STEP_MUTE_TIME", off := 0x50 },
  { name := "STEP_STRUM_TIME", off := 0x54 },
  { name := "STEP_MUTED_CNT", off := 0x58, rc := 0xFFFFFFFF },
  { name := "STEP_FAIL_CNT", off := 0x5C, rc := 0xFFFFFFFF },
  { name := "STEP_LATE_CNT", off := 0x60, rc := 0xFFFFFFFF },
  { name := "STEP_SIL_CFG", off := 0x70, rw := 0xFFFF, reset := 0x100 },
  { name := "STEP_SIL_SEL", off := 0x74, rw := 0x3FF },
  { name := "STEP_SIL_CNT", off := 0x78 }]

/-- The registers of block STK. -/
def rowsStk : List RegRow := [
  { name := "STK_STAT", off := 0x0 },
  { name := "STK_CE", off := 0x4, rc := 0xFFFFFFFF },
  { name := "STK_UE", off := 0x8, rc := 0xFFFF },
  { name := "STK_UE_ADDR_LO", off := 0xC },
  { name := "STK_UE_ADDR_HI", off := 0x10 },
  { name := "STK_SCRUB_CFG", off := 0x14, rw := 0x800000FF, reset := 0x80000018, nz := [(7, 0)] },
  { name := "STK_SCRUB_STAT", off := 0x18 },
  { name := "STK_ATOM_CNT", off := 0x1C, rc := 0xFFFFFFFF },
  { name := "STK_GUARD_CNT", off := 0x20, rc := 0xFFFFFFFF },
  { name := "STK_BKT_SEL", off := 0x30, rw := 0xFFF },
  { name := "STK_BKT_STAT", off := 0x34 },
  { name := "STK_BKT_CFG", off := 0x38 }]

/-- The registers of block BRG. -/
def rowsBrg : List RegRow := [
  { name := "BRG_STAT", off := 0x0 },
  { name := "BRG_CRC", off := 0x4, rc := 0xFFFFFFFF },
  { name := "BRG_DOWN", off := 0x8 },
  { name := "BRG_BYTES_d_k", off := 0x10, n := 6 }]

/-- The registers of block DBG. -/
def rowsDbg : List RegRow := [
  { name := "DBG_STAT", off := 0x0 },
  { name := "DBG_LEFT", off := 0x4 },
  { name := "DBG_CHAL_n", off := 0x10, n := 4 },
  { name := "DBG_KEYID_n", off := 0x20, n := 4 },
  { name := "DBG_REFUSED", off := 0x30, rc := 0xFFFFFFFF }]

/-- The registers of block HLF. -/
def rowsHlf : List RegRow := [
  { name := "HLF_ROLE", off := 0x0 },
  { name := "HLF_HB_RX", off := 0x4 },
  { name := "HLF_HB_MISS", off := 0x8, rc := 0xFFFF },
  { name := "HLF_EPOCH", off := 0xC }]

/-- The registers of block CORE. -/
def rowsCore : List RegRow := [
  { name := "CORE_STAT", off := 0x0 },
  { name := "CORE_FAULT", off := 0x4 },
  { name := "CORE_STEPFLT_SRC", off := 0x8 },
  { name := "CORE_PROG", off := 0xC },
  { name := "CORE_THR_CTL", off := 0x10, rw := 0xFFFFFFFF },
  { name := "CORE_THR_RUN", off := 0x14 },
  { name := "CORE_THR_FLT", off := 0x18 },
  { name := "CORE_MOVE_STAT", off := 0x20 },
  { name := "CORE_MOVE_ERR", off := 0x24, rc := 0xFFFF },
  { name := "CORE_GET_DROP", off := 0x28, rc := 0xFFFF },
  { name := "CORE_THR_STAT_t", off := 0x100, n := 32 },
  { name := "CORE_EXC_ADDR_t", off := 0x180, n := 32 },
  { name := "CORE_RC_n", off := 0x200, n := 16 }]

/-- The registers of block ARR. -/
def rowsArr : List RegRow := [
  { name := "ARR_PART_CFG", off := 0x0 },
  { name := "ARR_FAULT", off := 0x4 },
  { name := "ARR_SPARE", off := 0x8, reset := 0x21202120 },
  { name := "ARR_PSTAT_p", off := 0x10, n := 4, stride := 16 },
  { name := "ARR_PBANK_p", off := 0x14, n := 4, stride := 16 },
  { name := "ARR_PFLAG_p", off := 0x18, n := 4, stride := 16, w1c := 0x7F },
  { name := "ARR_PECC_p", off := 0x1C, n := 4, stride := 16, rc := 0xFFFF },
  { name := "ARR_PWR_CFG", off := 0x50, rw := 0x80FFFFFF, reset := 0x8014140F, nz := [(23, 16), (15, 8)] },
  { name := "ARR_PWR_STAT", off := 0x54 },
  { name := "ARR_DRONE_CNT", off := 0x58, rc := 0xFFFFFFFF },
  { name := "ARR_SOFT_CNT", off := 0x5C, rc := 0xFFFF },
  { name := "ARR_DBG_SEL", off := 0x80, rw := 0x1FF1F },
  { name := "ARR_DBG_DATA0", off := 0x84 },
  { name := "ARR_DBG_DATA1", off := 0x88 },
  { name := "ARR_DBG_DATA2", off := 0x8C },
  { name := "ARR_DBG_DATA3", off := 0x90 }]

/-- The registers of block VEC. -/
def rowsVec : List RegRow := [
  { name := "VEC_STAT", off := 0x0 },
  { name := "VEC_LUT_VALID", off := 0x4 },
  { name := "VEC_CSTAT", off := 0x8, w1c := 0xF },
  { name := "VEC_FLUSH", off := 0xC, rc := 0xFFFFFFFF },
  { name := "VEC_CNF_BUCKET", off := 0x10, reset := 0xFFF },
  { name := "VEC_SP_BUCKET", off := 0x18, reset := 0xFFF },
  { name := "VEC_CNF_INDEX", off := 0x14, reset := 0xFFFFFFFF },
  { name := "VEC_SP_INDEX", off := 0x1C, reset := 0xFFFFFFFF },
  { name := "VEC_SC_STEAL", off := 0x20, rc := 0xFFFFFFFF },
  { name := "VEC_SC_SAT", off := 0x24, rc := 0xFFFF }]

/-- The registers of block STKM. -/
def rowsStkm : List RegRow := [
  { name := "STK_SRAM_CE", off := 0xC000, rc := 0xFFFFFFFF },
  { name := "STK_SRAM_UE", off := 0xC004, rc := 0xFFFF },
  { name := "STK_SRAM_SCRUB_CFG", off := 0xC010, rw := 0x8000FFFF, reset := 0x8000003C, nz := [(15, 0)] },
  { name := "STK_RGN_BASE_n", off := 0xC100, n := 16, stride := 16 },
  { name := "STK_RGN_SIZE_n", off := 0xC104, n := 16, stride := 16 },
  { name := "STK_RGN_MAP_n", off := 0xC108, n := 16, stride := 16 },
  { name := "STK_SRAM_UE_ADDR_LO", off := 0xC008 },
  { name := "STK_SRAM_UE_ADDR_HI", off := 0xC00C }]

/-- The registers of block LNKJ. -/
def rowsLnkj : List RegRow := [
  { name := "LNK_JOB_SHAPE", off := 0xF000 },
  { name := "LNK_JOB_COORD", off := 0xF004 },
  { name := "LNK_JOB_MAP", off := 0xF008, reset := 0x24 },
  { name := "LNK_JOB_TAG", off := 0xF00C },
  { name := "LNK_VERSIONS", off := 0xF010, reset := 0x101310 },
  { name := "LNK_STRAP", off := 0xF014 },
  { name := "LNK_BYPASS", off := 0xF018, reset := 0x7 }]

/-- The register rows of a block. -/
def regRows : Block → List RegRow
  | .modB => rowsModB
  | .own => rowsOwn
  | .sec => rowsSec
  | .clk => rowsClk
  | .pwr => rowsPwr
  | .evt => rowsEvt
  | .fim => rowsFim
  | .hst => rowsHst
  | .lnk => rowsLnk
  | .rte => rowsRte
  | .col => rowsCol
  | .stp => rowsStp
  | .stk => rowsStk
  | .brg => rowsBrg
  | .dbg => rowsDbg
  | .hlf => rowsHlf
  | .core => rowsCore
  | .arr => rowsArr
  | .vec => rowsVec
  | .stkm => rowsStkm
  | .lnkj => rowsLnkj

/-- A decoded control-space address: block, instance, register row and index within the row. -/
structure RegAddr where
  block : Block
  inst : Nat
  row : RegRow
  idx : Nat
  deriving DecidableEq, Repr

/-- Block, instance and offset of a control-space address (R23). -/
def blockAt (a : Nat) : Option (Block × Nat × Nat) :=
  let o := a % 0x10000
  if a < 0x000F0000 then
    match a / 0x10000 with
    | 0 => some (.modB, 0, o)
    | 1 => some (.own, 0, o)
    | 2 => some (.sec, 0, o)
    | 3 => some (.clk, 0, o)
    | 4 => some (.pwr, 0, o)
    | 5 => some (.evt, 0, o)
    | 6 => some (.fim, 0, o)
    | 7 => some (.hst, 0, o)
    | 8 => if o < 0x6000 then some (.lnk, o / 0x1000, o % 0x1000) else some (.lnkj, 0, o)
    | 9 => some (.rte, 0, o)
    | 10 => some (.col, 0, o)
    | 11 => some (.stp, 0, o)
    | 12 => if o < 0xC000 then some (.stk, o / 0x1000, o % 0x1000) else some (.stkm, 0, o)
    | 13 => some (.brg, 0, o)
    | _ => some (.dbg, 0, o)
  else if a < 0x10000000 then none
  else if a < 0x20000000 then some (.hlf, (a - 0x10000000) / 0x08000000, a % 0x08000000)
  else if a < 0x20600000 then
    let c := (a - 0x20000000) / 0x10000
    if o < 0x4000 then some (.core, c, o)
    else if o < 0x8000 then some (.arr, c, o - 0x4000)
    else some (.vec, c, o - 0x8000)
  else none

/-- Whether offset `o` is a register of row `r`. -/
def RegRow.has (r : RegRow) (o : Nat) : Bool :=
  decide (r.off ≤ o) && decide ((o - r.off) % r.stride = 0) && decide ((o - r.off) / r.stride < r.n)

/-- Decode a control-space address; none is an address error (R10, R23). DESIGN CHOICE: also an offset in a MOD or HLF block
at which no register is listed is not decoded, which the manual says of the other blocks only (log 62). -/
def decodeReg (a : Nat) : Option RegAddr :=
  match blockAt a with
  | none => none
  | some (b, i, o) =>
    match (regRows b).find? fun r => r.has o with
    | none => none
    | some r => some ⟨b, i, r, (o - r.off) / r.stride⟩

/-- The value a register holds at reset by its table. -/
def resetOf (a : Nat) : Word :=
  match decodeReg a with
  | none => 0
  | some r => BitVec.ofNat 32 r.row.reset

/-- What a write of `v` leaves in the stored bits `old` of a register (R5, R6): RW fields take the value, W1C bits
clear, the rest keeps; a field that ignores a write of 0 keeps. -/
def RegRow.written (r : RegRow) (old v : Word) : Word :=
  let o := old.toNat
  let w := v.toNat
  let keep := r.nz.foldl (fun m (p : Nat × Nat) =>
    if field v p.1 p.2 = 0 then m ||| ((2 ^ (p.1 + 1 - p.2) - 1) <<< p.2) else m) 0
  let rw := r.rw &&& (0xFFFFFFFF ^^^ keep)
  BitVec.ofNat 32 (((o &&& (0xFFFFFFFF ^^^ (rw ||| (r.w1c &&& w)))) ||| (w &&& rw)))

end Sys2Proof.Machine
end

