-- ==== Sys2Proof/Machine/Formats.lean ====
section
/-! DEFINITION. The number formats (R27 to R47): exact values, decoding, and the one rounding to nearest even. -/

namespace Sys2Proof.Machine

/-- An exact value: NaN, a signed infinity, or (-1)^neg * mag * 2^x with the sign of a zero kept (R34). -/
inductive FV where
  | nan
  | inf (neg : Bool)
  | num (neg : Bool) (mag : Nat) (x : Int)
  deriving DecidableEq, Repr

/-- A dyadic number m * 2^x (chapter 03). -/
structure Dy where
  m : Int
  x : Int
  deriving DecidableEq, Repr

/-- Which special values a floating format has (R33). -/
inductive FKind where
  | ieee | e4m3 | e2m1
  deriving DecidableEq, Repr

/-- A floating format: exponent bits, fraction bits, bias, special values (R33). -/
structure FFmt where
  eb : Nat
  fb : Nat
  bias : Int
  kind : FKind
  deriving DecidableEq, Repr

def fB32 : FFmt := ⟨8, 23, 127, .ieee⟩
def fBF16 : FFmt := ⟨8, 7, 127, .ieee⟩
def fB16 : FFmt := ⟨5, 10, 15, .ieee⟩
def fE4M3 : FFmt := ⟨4, 3, 7, .e4m3⟩
def fE5M2 : FFmt := ⟨5, 2, 15, .ieee⟩
def fE2M1 : FFmt := ⟨2, 1, 1, .e2m1⟩
def fM48 : FFmt := ⟨8, 39, 127, .ieee⟩

def FFmt.width (f : FFmt) : Nat := f.eb + f.fb + 1

/-- Code of the largest finite magnitude (R33). -/
def FFmt.maxCode (f : FFmt) : Nat :=
  match f.kind with
  | .ieee => (2 ^ f.eb - 1) * 2 ^ f.fb - 1
  | .e4m3 => 0x7E
  | .e2m1 => 7

/-- The canonical NaN (R32, R33); E2M1 has none and takes 0. -/
def FFmt.nanCode (f : FFmt) : Nat :=
  match f.kind with
  | .ieee => (2 ^ f.eb - 1) * 2 ^ f.fb + 2 ^ (f.fb - 1)
  | .e4m3 => 0x7F
  | .e2m1 => 0

/-- The exact value of a code (R31 to R33). -/
def FFmt.decode (f : FFmt) (c : Nat) : FV :=
  let neg := c.testBit (f.eb + f.fb)
  let a := c % 2 ^ (f.eb + f.fb)
  let e := a / 2 ^ f.fb
  let fr := a % 2 ^ f.fb
  let fin : FV :=
    if e = 0 then .num neg fr (1 - f.bias - f.fb) else .num neg (2 ^ f.fb + fr) ((e : Int) - f.bias - f.fb)
  match f.kind with
  | .ieee => if e = 2 ^ f.eb - 1 then (if fr = 0 then .inf neg else .nan) else fin
  | .e4m3 => if a = 0x7F then .nan else fin
  | .e2m1 => fin

/-- mag * 2^sh rounded to nearest, ties to even (R29). -/
def rne (mag : Nat) (sh : Int) : Nat :=
  if 0 ≤ sh then mag * 2 ^ sh.toNat
  else
    let k := (-sh).toNat
    let q := mag / 2 ^ k
    let r := mag % 2 ^ k
    let h := 2 ^ (k - 1)
    if h < r ∨ (r = h ∧ q % 2 = 1) then q + 1 else q

/-- mag * 2^sh truncated toward zero. -/
def truncSh (mag : Nat) (sh : Int) : Nat :=
  if 0 ≤ sh then mag * 2 ^ sh.toNat else mag / 2 ^ (-sh).toNat

/-- floor(log2(mag * 2^x)) for mag above 0. -/
def flog2 (mag : Nat) (x : Int) : Int := (Nat.log2 mag : Int) + x

/-- A rounding's code and whether it passed the largest finite magnitude with unbounded exponent range (R86). -/
structure Rounded where
  code : Nat
  ovf : Bool
  deriving DecidableEq, Repr

/-- One rounding of an exact value to format `f` (R28 to R34): overflow gives infinity, 448 in E4M3, 6 in E2M1. -/
def FFmt.round (f : FFmt) : FV → Rounded
  | .nan => ⟨f.nanCode, false⟩
  | .inf neg =>
    match f.kind with
    | .ieee => ⟨b2n neg * 2 ^ (f.eb + f.fb) + f.maxCode + 1, false⟩
    | .e4m3 => ⟨0x7F, false⟩
    | .e2m1 => ⟨b2n neg * 2 ^ (f.eb + f.fb) + f.maxCode, false⟩
  | .num neg mag x =>
    let s := b2n neg * 2 ^ (f.eb + f.fb)
    if mag = 0 then ⟨s, false⟩
    else
      let ex := max (flog2 mag x) (1 - f.bias)
      let n := rne mag (x - (ex - f.fb))
      let c := ((ex + f.bias - 1) * (2 ^ f.fb : Nat) + n).toNat
      if f.maxCode < c then
        match f.kind with
        | .ieee => ⟨s + f.maxCode + 1, true⟩
        | _ => ⟨s + f.maxCode, true⟩
      else ⟨s + c, false⟩

def FV.isNan : FV → Bool
  | .nan => true
  | _ => false

def FV.isInf : FV → Bool
  | .inf _ => true
  | _ => false

def FV.nonfinite : FV → Bool
  | .num .. => false
  | _ => true

def FV.isZero : FV → Bool
  | .num _ 0 _ => true
  | _ => false

def FV.sign : FV → Bool
  | .nan => false
  | .inf n => n
  | .num n _ _ => n

def FV.neg : FV → FV
  | .nan => .nan
  | .inf n => .inf (!n)
  | .num n m x => .num (!n) m x

def FV.abs : FV → FV
  | .nan => .nan
  | .inf _ => .inf false
  | .num _ m x => .num false m x

/-- The value times 2^k. -/
def FV.scale (k : Int) : FV → FV
  | .num n m x => .num n m (x + k)
  | v => v

/-- The signed number of a finite value; 0 otherwise. -/
def FV.dy : FV → Dy
  | .num n m x => ⟨if n then -(m : Int) else m, x⟩
  | _ => ⟨0, 0⟩

/-- A dyadic number as a value; a zero takes the sign given. -/
def Dy.fv (d : Dy) (zeroNeg : Bool := false) : FV :=
  if d.m = 0 then .num zeroNeg 0 0 else .num (decide (d.m < 0)) d.m.natAbs d.x

/-- The integer of `d` in units of 2^u, for u at or below the exponent of d. -/
def Dy.at (d : Dy) (u : Int) : Int := d.m * ((2 ^ (d.x - u).toNat : Nat) : Int)

def Dy.add (a b : Dy) : Dy :=
  let u := min a.x b.x
  ⟨a.at u + b.at u, u⟩

def Dy.mul (a b : Dy) : Dy := ⟨a.m * b.m, a.x + b.x⟩

def Dy.scale (a : Dy) (k : Int) : Dy := ⟨a.m, a.x + k⟩

def Dy.lt (a b : Dy) : Bool :=
  let u := min a.x b.x
  decide (a.at u < b.at u)

def Dy.eq (a b : Dy) : Bool :=
  let u := min a.x b.x
  decide (a.at u = b.at u)

/-- d / 2^u truncated toward zero (R51, R55). -/
def Dy.trunc (d : Dy) (u : Int) : Int :=
  let q := truncSh d.m.natAbs (d.x - u)
  if d.m < 0 then -(q : Int) else q

/-- d / 2^u rounded to nearest even. -/
def Dy.rne (d : Dy) (u : Int) : Int :=
  let q := Sys2Proof.Machine.rne d.m.natAbs (d.x - u)
  if d.m < 0 then -(q : Int) else q

/-- floor(d / 2^u). -/
def Dy.floor (d : Dy) (u : Int) : Int :=
  let s := d.x - u
  if 0 ≤ s then d.m * ((2 ^ s.toNat : Nat) : Int) else d.m / ((2 ^ (-s).toNat : Nat) : Int)

/-- The exact sum under IEEE 754: signed zeros, infinities, invalid (R57, R58). -/
def FV.add : FV → FV → FV
  | .nan, _ => .nan
  | _, .nan => .nan
  | .inf a, .inf b => if a = b then .inf a else .nan
  | .inf a, _ => .inf a
  | _, .inf b => .inf b
  | .num a m x, .num b n y =>
    Dy.fv (Dy.add (FV.dy (.num a m x)) (FV.dy (.num b n y))) (m = 0 ∧ n = 0 ∧ a ∧ b)

/-- The exact product under IEEE 754. -/
def FV.mul : FV → FV → FV
  | .nan, _ => .nan
  | _, .nan => .nan
  | .inf a, .inf b => .inf (a != b)
  | .inf a, .num b n _ => if n = 0 then .nan else .inf (a != b)
  | .num a m _, .inf b => if m = 0 then .nan else .inf (a != b)
  | .num a m x, .num b n y => .num (a != b) (m * n) (x + y)

/-- A quotient with 200 bits and a sticky bit, enough for one correct rounding to any format of R33. -/
def FV.div : FV → FV → FV
  | .nan, _ => .nan
  | _, .nan => .nan
  | .inf _, .inf _ => .nan
  | .inf a, .num b _ _ => .inf (a != b)
  | .num a _ _, .inf b => .num (a != b) 0 0
  | .num a m x, .num b n y =>
    if n = 0 then (if m = 0 then .nan else .inf (a != b))
    else if m = 0 then .num (a != b) 0 0
    else
      let t := m * 2 ^ 200
      .num (a != b) (2 * (t / n) + (if t % n = 0 then 0 else 1)) (x - y - 201)

/-- One step of the bitwise square root: `r` is the root so far of `n` from bit `k` down. -/
def isqrtGo (n : Nat) : Nat → Nat → Nat
  | 0, r => r
  | k + 1, r =>
    let t := r + 2 ^ k
    isqrtGo n k (if t * t ≤ n then t else r)

/-- floor of the square root of `n`, for n below 2^(2k). -/
def isqrt (k n : Nat) : Nat := isqrtGo n k 0

/-- A square root with a sticky bit (R145); a negative non-zero value gives NaN. -/
def FV.sqrt : FV → FV
  | .nan => .nan
  | .inf a => if a then .nan else .inf false
  | .num a m x =>
    if m = 0 then .num a 0 0
    else if a then .nan
    else
      let odd := x % 2 != 0
      let t := (if odd then 2 * m else m) * 2 ^ 120
      let y := ((if odd then x - 1 else x) - 120) / 2
      let r := isqrt (Nat.log2 t / 2 + 1) t
      .num false (2 * r + (if r * r = t then 0 else 1)) (y - 1)

/-- Order of two values that are not NaN. -/
def FV.lt : FV → FV → Bool
  | .nan, _ => false
  | _, .nan => false
  | .inf a, .inf b => a && !b
  | .inf a, .num .. => a
  | .num .., .inf b => !b
  | a, b => Dy.lt a.dy b.dy

def FV.eqv : FV → FV → Bool
  | .nan, _ => false
  | _, .nan => false
  | .inf a, .inf b => a == b
  | .inf _, .num .. => false
  | .num .., .inf _ => false
  | a, b => Dy.eq a.dy b.dy

/-- The value a binary32 code stands for. -/
def b32v (c : Nat) : FV := fB32.decode c

/-- round_b32 (chapter 03). -/
def rb32 (v : FV) : Nat := (fB32.round v).code

/-- What a conversion into SSI32 gives and records (R41). -/
structure SsiOut where
  val : Int
  nonfinite : Bool
  spoiled : Bool
  flushed : Bool
  deriving DecidableEq, Repr

def i32max : Int := 2147483647
def i32min : Int := -2147483648

/-- Conversion into SSI32 with scale e (R41). -/
def toSsi (v : FV) (e : Int) : SsiOut :=
  if v.nonfinite then ⟨0, true, false, false⟩
  else
    let n := v.dy.rne e
    if i32max < n then ⟨i32max, false, true, false⟩
    else if n < i32min then ⟨i32min, false, true, false⟩
    else ⟨n, false, false, n = 0 ∧ v.isZero = false⟩

/-- The value of an SSI32 element with scale e (R40). -/
def ssiV (n : Int) (e : Int) : FV := Dy.fv ⟨n, e⟩

/-- The value of the E8M0 scale byte as a power of two; none for NaN (R36). -/
def e8m0 (b : Nat) : Option Int := if b = 0xFF then none else some ((b : Int) - 127)

/-- The value of an MX element with block scale byte `sc` (R36). -/
def mxV (f : FFmt) (c sc : Nat) : FV :=
  match e8m0 sc with
  | none => .nan
  | some k => (f.decode c).scale k

/-- emax of an MX element format (R37). -/
def emaxOf (f : FFmt) : Int :=
  match f.kind with
  | .e2m1 => 2
  | .e4m3 => 8
  | .ieee => 15

/-- The larger magnitude of two finite values. -/
def maxMag (a b : FV) : FV := if FV.lt a.abs b.abs then b.abs else a.abs

/-- Quantise the values of one block to MX (R37): scale byte, element codes, whether a source was non-finite. -/
def mxQuant (f : FFmt) (xs : List FV) : Nat × List Nat × Bool :=
  if xs.any FV.nonfinite then (0xFF, xs.map (fun _ => 0), true)
  else
    let amax := xs.foldl maxMag (.num false 0 0)
    let xe : Int :=
      match amax with
      | .num _ m x => if m = 0 then -127 else max (flog2 m x - emaxOf f) (-127)
      | _ => -127
    let clampMax : FV → Nat := fun v =>
      let r := f.round (v.scale (-xe))
      if r.ovf then b2n v.sign * 2 ^ (f.eb + f.fb) + f.maxCode else r.code
    ((xe + 127).toNat, xs.map clampMax, false)

/-- The formats of R27 by code; the carrier and the reserved codes have no floating format. -/
def fmtOf (c : Nat) : Option FFmt :=
  match c with
  | 0 => some fB32
  | 1 => some fBF16
  | 2 => some fB16
  | 3 => some fE4M3
  | 4 => some fE5M2
  | 5 => some fE4M3
  | 6 => some fE5M2
  | 7 => some fE2M1
  | 9 => some fM48
  | _ => none

def isMx (c : Nat) : Bool := c == 5 || c == 6 || c == 7

/-- Element width in bits of a format code (R27). -/
def elemBits (c : Nat) : Nat :=
  match c with
  | 0 => 32
  | 1 => 16
  | 2 => 16
  | 3 => 8
  | 4 => 8
  | 5 => 8
  | 6 => 8
  | 7 => 4
  | 8 => 32
  | 9 => 48
  | _ => 0

end Sys2Proof.Machine
end

