-- ==== Sys2Proof/Machine/StCore.lean ====
section
/-! DEFINITION. The state of a core: threads (R104, R108), move engine (R116 to R125), matrix array (R71 to R103),
vector engine (R142 to R164), barriers and receive counters (R127 to R132). -/

namespace Sys2Proof.Machine

/-- Thread states (R108). -/
inductive ThrState where
  | idle | run | ending | stopped | faulted
  deriving DecidableEq, Repr

/-- Exception causes, in the order of R136's codes. -/
inductive Cause where
  | illegal | addr | align | prot
  deriving DecidableEq, Repr

/-- The code of a cause (R136). -/
def Cause.code : Cause → Nat
  | .illegal => 1
  | .addr => 2
  | .align => 3
  | .prot => 4

/-- The barrier a thread waits at (R131, R132). -/
inductive WaitOn where
  | none | bar (b : Nat) | gbar (g : Nat)
  deriving DecidableEq, Repr

/-- A wait counter with its ERR bit (R127). -/
structure WaitCnt where
  n : Nat := 0
  err : Bool := false
  deriving DecidableEq, Repr

/-- A hardware thread (R104). `rcWait` is the receive counter and the amount that a WAITRC waits for (R130); `pend` counts the AFLAGs whose destination a scalar register still awaits (R115). -/
structure ThreadSt where
  st : ThrState := .idle
  pc : DWord := 0
  s : Map DWord := []
  v : Map VReg := []
  w : Map WaitCnt := []
  pend : Map Nat := []
  memErr : Bool := false
  cause : Option Cause := none
  excAddr : DWord := 0
  waitOn : WaitOn := .none
  rcWait : Option (Nat × Nat) := none
  deriving DecidableEq, Repr

/-- A move descriptor (R117). -/
structure MoveDesc where
  src : Nat := 0
  dst : Nat := 0
  sscl : Nat := 0
  dscl : Nat := 0
  len0 : Nat := 0
  cnt1 : Nat := 0
  cnt2 : Nat := 0
  sstr1 : Int := 0
  sstr2 : Int := 0
  dstr1 : Int := 0
  dstr2 : Int := 0
  kind : Nat := 0
  esize : Nat := 0
  target : Nat := 0
  vc : Nat := 0
  mx : Bool := false
  mx4 : Bool := false
  contrib : Bool := false
  notify : BitVec 16 := 0
  deriving DecidableEq, Repr

/-- Who waits for an array or move operation: its thread and, with WEN = 1, its wait counter (R127). -/
structure Track where
  thr : Nat := 0
  wen : Bool := false
  wctr : Nat := 0
  deriving DecidableEq, Repr

/-- A queued move. -/
structure MoveOp where
  d : MoveDesc := {}
  tr : Track := {}
  deriving DecidableEq, Repr

/-- A message: one run of a PUT or GET (R286 to R291), with the payload of its packets, the answers counted and the
GET_REQs to send again (packet index and time). -/
structure Msg where
  run : Nat := 0
  pmax : Nat := 8192
  count : Nat := 0
  answered : Nat := 0
  sentAt : Nat := 0
  retry : List (Nat × Nat) := []
  deriving DecidableEq, Repr

/-- A running move (R125). For an atomic move `run` and `off` are the next piece (R174), and `owed` the runs whose
contribution the home die has not counted (R178). For a PUT or GET `run` and `off` are the next packet, `msgs` the
messages begun, `note` that the NOTIFY is sent (R287). `stopped` marks a move that a fault or core reset stopped (R139). -/
structure RunMove where
  op : MoveOp := {}
  run : Nat := 0
  off : Nat := 0
  owed : List Nat := []
  msgs : List Msg := []
  note : Bool := false
  err : Bool := false
  done : Bool := false
  stopped : Bool := false
  deriving DecidableEq, Repr

/-- The array operations (R73). -/
inductive ArrKind where
  | aload | astream | adrain | aflag | aseed
  deriving DecidableEq, Repr

/-- An array operation with the fields of R73 and R113. -/
structure ArrOp where
  id : Nat := 0
  kind : ArrKind := .aflag
  tr : Track := {}
  addr : Nat := 0
  stride : Nat := 0
  mask : Nat := 0
  saddr : Nat := 0
  fmt : Nat := 0
  fmtA : Nat := 0
  fmtB : Nat := 0
  bank : Nat := 0
  swap : Bool := false
  accInit : Bool := false
  anchor : Int := 0
  sA : Int := 0
  sB : Int := 0
  g : Nat := 16
  mbase : Nat := 0
  mcount : Nat := 0
  colMask : Nat := 0
  clear : Bool := false
  outFmt : Nat := 0
  outScale : Int := 0
  amax : Nat := 0
  clearMask : Nat := 0
  dest : Nat := 0
  deriving DecidableEq, Repr

/-- The tile of a partition: element bytes of cell (r, c) at r * 32 + c, scale byte of block b and column c at
b * 32 + c, and the format of the last ALOAD that wrote it (R76, R78). `par` marks the bytes of a cell whose parity is bad (R92). -/
structure Tile where
  fmt : Option Nat := none
  cells : Map (BitVec 128) := []
  par : Map (BitVec 16) := []
  scales : Map Byte := []
  deriving DecidableEq, Repr

/-- A pass that has left the queue: rows issued so far, rows not yet written, error status (R81, R115). -/
structure Pass where
  op : ArrOp := {}
  issued : Nat := 0
  out : Nat := 0
  err : Bool := false
  deriving DecidableEq, Repr

/-- What a row in flight will add in one column: the narrow total or the wide group sums, with their flags. -/
structure RowCol where
  col : Nat := 0
  q : Int := 0
  gs : List Nat := []
  nan : Bool := false
  wloss : Bool := false
  ovf : Bool := false
  deriving DecidableEq, Repr

/-- A row in flight (R81). `age` is the least number of core cycles since its issue; `anchor` is that of its pass (R44). -/
structure InRow where
  id : Nat := 0
  age : Nat := 0
  bank : Nat := 0
  mrow : Nat := 0
  wide : Bool := false
  accInit : Bool := false
  anchor : Int := 0
  cols : List RowCol := []
  deriving DecidableEq, Repr

/-- A drain in progress: the outputs still to come as (m-row offset, column), whether every entry has been read and the
bank cleared, the maximum so far, error status (R86 to R88). -/
structure Drain where
  op : ArrOp := {}
  todo : List (Nat × Nat) := []
  read : Bool := false
  amax : FV := .num false 0 0
  err : Bool := false
  deriving DecidableEq, Repr

/-- The claim of a bank of a partition (R75). -/
structure Claim where
  thr : Nat
  wide : Bool
  deriving DecidableEq, Repr

/-- A partition of an array (R91). `drains` and `seeds` are those in progress, oldest first (R88, R90). -/
structure PartSt where
  nextId : Nat := 0
  queue : List ArrOp := []
  load : Option ArrOp := none
  passes : List Pass := []
  rows : List InRow := []
  drains : List Drain := []
  seeds : List ArrOp := []
  act : Tile := {}
  shd : Tile := {}
  sscale : List (Nat × List Byte × Bool) := []
  claim0 : Option Claim := none
  claim1 : Option Claim := none
  flags : BitVec 7 := 0
  deriving DecidableEq, Repr

/-- An accumulator entry (R84): the 96-bit integer or the binary32 value in [31:0], the NaN tag, whether it has been
written since the bank was cleared, and the anchor of the last pass that wrote it (R44, log 46). -/
structure Entry where
  v : BitVec 96 := 0
  tag : Bool := false
  written : Bool := false
  anchor : Int := 0
  deriving DecidableEq, Repr

/-- Array power states (R98). -/
inductive ArrPwr where
  | cold | softStart | active | drone | rampDown
  deriving DecidableEq, Repr

/-- The code of an array power state in ARR_PWR_STAT (R103). -/
def ArrPwr.code : ArrPwr → Nat
  | .cold => 0
  | .softStart => 1
  | .active => 2
  | .drone => 3
  | .rampDown => 4

/-- A debug sample of an accumulator entry (R100, R101). -/
structure DbgSample where
  e : Entry := {}
  stale : Bool := false
  wide : Bool := false
  ue : Bool := false
  deriving DecidableEq, Repr

/-- The matrix array of a core. Entry (bank, m, n) stands at bank * 8192 + m * 32 + n. `cfg` is ARR_PWR_CFG as it
took effect at the last change of power state (R103). -/
structure ArrSt where
  mode : Nat := 0
  fault : BitVec 3 := 0
  parts : Map PartSt := []
  acc : Map Entry := []
  pwr : ArrPwr := .cold
  level : Nat := 0
  timer : Nat := 0
  cfg : Word := 0
  dbg : DbgSample := {}
  deriving DecidableEq, Repr

/-- Carrier status of a core (R147, R149). -/
structure CStat where
  nf : Bool := false
  cnf : Bool := false
  spoiled : Bool := false
  updNf : Bool := false
  flush : Nat := 0
  cnfSrc : Option (Nat × Nat) := none
  spSrc : Option (Nat × Nat) := none
  deriving DecidableEq, Repr

/-- A table load in progress (R154). -/
structure LutLoad where
  slot : Nat
  thr : Nat
  addr : Nat
  deriving DecidableEq, Repr

/-- The vector engine of a core: table slots with their bytes (R151), the valid bits, loads, carrier status. -/
structure VecSt where
  tables : Map (List Byte) := []
  valid : BitVec 16 := 0
  loads : List LutLoad := []
  cst : CStat := {}
  deriving DecidableEq, Repr

/-- A barrier in use: the participant count and the threads that arrived (R131). -/
structure Bar where
  need : Nat := 0
  arr : List Nat := []
  deriving DecidableEq, Repr

/-- A core. `ready` is false in reset and self-test; `faultBits` are those of CORE_FAULT. `gone` counts, by message tag, the GET responses still to come
for moves that a core reset discarded (R140), `late` the answers still to come for messages that have timed out and for PUTs
that were stopped (R139, R291). -/
structure CoreSt where
  ready : Bool := false
  faultState : Bool := false
  faultBits : BitVec 4 := 0
  stepFault : Bool := false
  sfSource : Nat := 0
  sfThread : Nat := 0
  sfCode : Nat := 0
  progBase : Nat := 0
  progSize : Nat := 0
  stop : BitVec 32 := 0
  thr : Map ThreadSt := []
  rc : Map Nat := []
  bars : Map Bar := []
  gbars : Map Bar := []
  mq : List MoveOp := []
  run : Map (Option RunMove) := []
  gone : Map Nat := []
  late : Map Nat := []
  arr : ArrSt := {}
  vec : VecSt := {}
  deriving DecidableEq, Repr

end Sys2Proof.Machine
end

