-- ==== Sys2Proof/Machine/StMem.lean ====
section
/-! DEFINITION. The state of memory and its parts: DRAM regions (R168), memory errors (R181 to R185), buckets (R177),
stacks (R184, R424), the bridge (R186), and the event sources (R438 to R447). -/

namespace Sys2Proof.Machine

/-- A DRAM region (R168): sizes in units of 256 MiB; policy 0 module-wide, 1 half-local, 2 single-stack. -/
structure Region where
  base : Nat := 0
  size : Nat := 0
  policy : Nat := 0
  target : Nat := 0
  offset : Nat := 0
  carrier : Bool := false
  deriving DecidableEq, Repr

/-- A location that holds an error: the key of its first byte (8 B in SRAM, 64 B in a stack). -/
structure EccLoc where
  key : Nat
  kind : EccKind
  deriving DecidableEq, Repr

/-- Function states (R423). -/
inductive FState where
  | off | starting | on | stopping
  deriving DecidableEq, Repr

/-- The code of a function state in the FSTATE fields. -/
def FState.code : FState → Nat
  | .off => 0
  | .starting => 1
  | .on => 2
  | .stopping => 3

/-- A function of R424 with its ENABLE_PENDING bit (R423). -/
structure FuncSt where
  st : FState := .off
  pend : Bool := false
  deriving DecidableEq, Repr

/-- A stack and its logic die (R184, R424). -/
structure StackSt where
  f : FuncSt := {}
  selfRefresh : Bool := false
  temp : Nat := 0
  refresh2x : Bool := false
  deriving DecidableEq, Repr

/-- A bucket of the image (R177, R197). -/
structure Bucket where
  base : Nat := 0
  result : Nat := 0
  len : Nat := 0
  contrib : Nat := 0
  expected : Nat := 0
  guard : Nat := 0
  desc : Nat := 0
  group : Nat := 0
  axis : Nat := 0
  localAdds : Nat := 0
  flushLimit : Nat := 0
  deriving DecidableEq, Repr

/-- The counter of a bucket at its home die (R178, R179). -/
structure BktCnt where
  count : Nat := 0
  full : Bool := false
  excess : Bool := false
  deriving DecidableEq, Repr

/-- The bridge (R186, R189): data lanes, sideband lanes, training, causes, replays of the flit in hand, payload bytes by
direction and class. -/
structure BridgeSt where
  dataUp : Bool := false
  sideUp : Bool := false
  training : Bool := false
  down : BitVec 2 := 0
  downAt : Nat := 0
  replays : Nat := 0
  bytes : List Nat := [0, 0, 0, 0, 0, 0]
  deriving DecidableEq, Repr

/-- Event classes (R438). -/
inductive EvClass where
  | fatal | security | error | warning | notice | trace
  deriving DecidableEq, Repr

/-- The code of an event class (R438). -/
def EvClass.code : EvClass → Nat
  | .fatal => 0
  | .security => 1
  | .error => 2
  | .warning => 3
  | .notice => 4
  | .trace => 5

/-- An event record (R438). `more` is the payload of a second record with CONT = 1; `gap` marks a GAP record. -/
structure Rec where
  time : DWord := 0
  step : BitVec 48 := 0
  attempt : BitVec 16 := 0
  cls : EvClass := .notice
  half : Nat := 0
  block : Nat := 0
  inst : Nat := 0
  code : Nat := 0
  rep : Nat := 0
  payload : List Byte := []
  more : Option (List Byte) := none
  gap : Bool := false
  seq : Nat := 0
  came : Nat := 0
  deriving DecidableEq, Repr

/-- A coalescing window of a source (R444). -/
structure Window where
  code : Nat
  closes : Nat
  count : Nat := 0
  latest : Rec := {}
  deriving DecidableEq, Repr

/-- Losses at one stage not yet reported (R445): count, class mask, TIME of the first. -/
structure Loss where
  n : Nat := 0
  mask : Nat := 0
  first : DWord := 0
  firstAt : Nat := 0
  deriving DecidableEq, Repr

/-- A token bucket: level in units of 10^-6 record, and when it was brought up to date (R444). -/
structure Tokens where
  used : Nat := 0
  at_ : Nat := 0
  deriving DecidableEq, Repr

/-- An event source (R444 to R446): windows, a token bucket for each class from ERROR, losses of stages 0 and 1, queue. -/
structure EvSrc where
  windows : List Window := []
  tokens : Map Tokens := []
  loss0 : Loss := {}
  loss1 : Loss := {}
  queue : List Rec := []
  deriving DecidableEq, Repr

/-- The event unit (R441 to R447): sources by BLOCK * 256 + INSTANCE, the records that have come from all of them, the ring
place, writers, trace buffer with the number of the record that each entry holds, alert. -/
structure EvSt where
  src : Map EvSrc := []
  arrivals : Nat := 0
  ringOff : Nat := 0x3FFF8000
  ringLog2 : Nat := 10
  defaultRing : Bool := true
  wrMain : Nat := 0
  wrRsv : Nat := 0
  traceOff : Nat := 0
  traceLen : Nat := 0
  traceIdx : Nat := 0
  traceStopped : Bool := false
  traceSeq : Map Nat := []
  fatal : Bool := false
  lastFatal : List Byte := []
  teleAt : Nat := 0
  deriving DecidableEq, Repr

end Sys2Proof.Machine
end

