-- ==== Sys2Proof/Machine/StNet.lean ====
section
/-! DEFINITION. The state of the loaded image (R258, R384 to R399), of the collectives (R318 to R340), of the router
(R282 to R317) and of the links (R260 to R281). -/

namespace Sys2Proof.Machine

/-! ## Image -/

/-- A bank set: two copies of equal length (R215, R389). -/
structure BankSet where
  copy0 : Nat := 0
  copy1 : Nat := 0
  len : Nat := 0
  deriving DecidableEq, Repr

/-- What the loaded Forming Image fixes and no register holds. Offsets count from the commons of half 0. An absent area
is none. -/
structure ImgSt where
  loaded : Bool := false
  ver : Nat := 0
  imgId : DWord := 0
  hash : BitVec 384 := 0
  coordValid : Bool := false
  coord : Coord := ⟨0, 0, 0⟩
  shape : Coord := ⟨0, 0, 0⟩
  wrap : BitVec 3 := 0
  jobTag : Word := 0
  kinds : Nat := 0x24
  portUse : Nat := 0
  linkMin : Nat := 0x10
  aukorPort : Nat := 40871
  groups : List (BitVec 96) := []
  recOff : Option Nat := none
  descOff : Nat := 0
  descCount : Nat := 0
  updPlace : Option (Nat × Nat × Nat) := none
  groupCount : Nat := 0
  curveCount : Nat := 0
  banks : List BankSet := []
  jobSeed : DWord := 0
  sched : Option (Nat × Nat × Nat) := none
  deriving DecidableEq, Repr

/-! ## Collectives -/

/-- A run of a schedule entry, or a vote (kind 4) (R320). `seq` is 0 to 2 for the link sequencers of an axis, 3 for the
scalar sequencer; `tag` is MSG_TAG[15:12]. `cover` counts expected packets that are lost or failed; `rx1`
and `tx1` are the shares of the axis's minus link. For SC runs and votes
`axis` is the axis in hand, `beats` the packets of it whose result the buffer holds, `buf` the buffer of a LOSS run. -/
structure ColRun where
  seq : Nat := 0
  entry : Nat := 0
  kind : Nat := 0
  tag : Nat := 0
  startedAt : Nat := 0
  rx : Nat := 0
  tx : Nat := 0
  rx1 : Nat := 0
  tx1 : Nat := 0
  cover : Nat := 0
  lost : Nat := 0
  failed : Nat := 0
  axis : Nat := 0
  beats : Nat := 0
  base : Nat := 0
  len : Nat := 0
  op : Nat := 0
  axes : Nat := 0
  e : Int := 0
  buf : List Byte := []
  deriving DecidableEq, Repr

/-- A packet in the router: the half it is at, the link it came in by (none when injected here), and the output it
takes (R298 to R301): link, then the packet as it will leave. `via` is the port that its sequencer gives it (R304, R329, R332),
`paid` that its input buffer has been freed, `at_` when it reached the ejection queue. -/
structure RPkt where
  p : Packet := {}
  half : Nat := 0
  inLink : Option Nat := none
  out : Option (Nat × Packet) := none
  via : Option Nat := none
  paid : Bool := false
  at_ : Nat := 0
  deriving DecidableEq, Repr

/-- The COL block (R321 to R340): next entry of each sequencer, runs, release counts by core * 4096 + entry, buckets
reported FULL, the accounting, the re-tune selection of the attempt, step actions released while earlier entries were
pending with the time of each release (R336), the sequencers that pass the rest of their stretch after a short run (R336,
R340), packets in the hold buffers of the collective units. -/
structure ColSt where
  next : List Nat := [0, 0, 0, 0]
  runs : List ColRun := []
  rel : Map Nat := []
  full : BitVec 4096 := 0
  short : Bool := false
  residue : Bool := false
  firstShort : Nat := 0xFFF
  why : Nat := 0
  lost : Nat := 0
  failed : Nat := 0
  stale : Nat := 0
  residues : Nat := 0
  spoiled : Nat := 0
  csigXs : Nat := 0
  resBeat : Nat := 0
  resBucket : Nat := 0xFFF
  lossSum : Nat := 0
  retune : Bool := false
  sel : BitVec 4096 := 0
  drains : List (Nat × Nat) := []
  passing : BitVec 4 := 0
  hold : List RPkt := []
  deriving DecidableEq, Repr

/-! ## Router -/

/-- A rate limiter (R308): rate, bytes of the bucket in use in units of 2^-16 B at time `at_`, last decrease, start of
the increase period, the last increase with the rate before it. -/
structure Limiter where
  rate : Nat := 65536
  used : Nat := 0
  at_ : Nat := 0
  lastDec : Option Nat := none
  since : Nat := 0
  inc : Option (Nat × Nat) := none
  deriving DecidableEq, Repr

/-- A scale descriptor as a move read one part, for the packet that holds the rest (R195): the message, the descriptor, its
bytes and when they were read. -/
structure Snap where
  src : Coord
  core : BitVec 7
  tag : BitVec 16
  desc : Nat
  data : List Byte
  at_ : Nat
  deriving DecidableEq, Repr

/-- The router (R298 to R317): table entries by destination number; an unlisted one is deliverable and adaptive (R310).
`undrainedAt` is when an arrival last cleared DRAINED (R316). -/
structure RtSt where
  quiesced : Bool := true
  resumeFail : Bool := false
  staged : Bool := false
  pkts : List RPkt := []
  ejq : List RPkt := []
  tbl : Map (BitVec 16) := []
  tblStaged : Map (BitVec 16) := []
  dl : Coord := ⟨0, 0, 0⟩
  dlStaged : Coord := ⟨0, 0, 0⟩
  lim : Map Limiter := []
  undrainedAt : Option Nat := none
  snaps : List Snap := []
  deriving DecidableEq, Repr

/-! ## Links -/

/-- Link states, in the order of the STATE codes of LNK_STAT (R267, R280). -/
inductive LState where
  | off | training | ident | quarantine | active | shifting | down | parking | parked | peerParked
  deriving DecidableEq, Repr

/-- The STATE code (R280). -/
def LState.code : LState → Nat
  | .off => 0
  | .training => 1
  | .ident => 2
  | .quarantine => 3
  | .active => 4
  | .shifting => 5
  | .down => 6
  | .parking => 7
  | .parked => 8
  | .peerParked => 9

/-- A flit to send; the last flit of a packet names the packet, the first one the packet as it stood in the router (R303). -/
structure TxFlit where
  f : Flit
  ends : Option Packet := none
  begins : Option RPkt := none
  deriving DecidableEq, Repr

/-- A sent group that the far end has not acknowledged (R262); `up` says that it carries UPSHIFT (R266). -/
structure SentGroup where
  seq : BitVec 12
  flits : List TxFlit
  credit : List Nat
  up : Bool := false
  deriving DecidableEq, Repr

/-- A link (R260 to R280). `since` is when the state began, `retryAt` when a retry falls due, `resend` how many groups of the
replay buffer must be sent again, `cred` the credits held, `owe` the credits to return, `shift` the target of a rate
change in the code of RATE, `upAfter` that an UPSHIFT came during a down-shift, `upOwn` that this end has one to send, `reident`
that a new image awaits its end, `heardAt` when the peer's latest IDENT came, `underReset` that a link reset is in progress
(R428), `lit` that it has trained since the module reset, `turn`, `left` and `debt`
the round robin of its output (R295). `lastTx` is the group sent last as it stands on the link, `txLanes` the lane of each of
its flits and `lane` the place of the next one among the active lanes (R261), `outbox` the link messages sent last. -/
structure LinkSt where
  st : LState := .off
  pend : Bool := false
  skip : Bool := false
  qreason : Nat := 0
  ver : Nat := 0
  rate : Nat := 0
  active : BitVec 16 := 0
  failed : BitVec 16 := 0
  good : BitVec 16 := 0xFFFF
  peer : Option Ident := none
  mine : Option Nat := none
  theirs : Option (Nat × Nat) := none
  attempts : Nat := 0
  lastFail : Nat := 0
  since : Nat := 0
  retryAt : Option Nat := none
  identAt : Nat := 0
  txq : List TxFlit := []
  replay : List SentGroup := []
  resend : Nat := 0
  fails : Nat := 0
  txSeq : BitVec 12 := 0
  rxSeq : BitVec 12 := 0xFFF
  nak : Bool := false
  ackAt : Nat := 0
  rxFlits : List (BitVec 512) := []
  cred : List Nat := [8192, 8192, 14336, 2048]
  owe : List Nat := [0, 0, 0, 0]
  dataAt : Nat := 0
  peerLow : Bool := false
  shift : Nat := 0
  upAfter : Bool := false
  upOwn : Bool := false
  reident : Bool := false
  heardAt : Nat := 0
  underReset : Bool := false
  lit : Bool := false
  turn : Nat := 1
  left : Nat := 0
  debt : List Nat := [0, 0, 0]
  lane : Nat := 0
  txLanes : List Nat := []
  lastTx : GroupWire := {}
  outbox : List Flit := []
  deriving DecidableEq, Repr

end Sys2Proof.Machine
end

