-- ==== Sys2Proof/Machine/StSys.lean ====
section
/-! DEFINITION. The state of the module's system blocks. -/

namespace Sys2Proof.Machine

/-- Step phases (R233), in the order of the PHASE codes of STEP_STAT (R237). -/
inductive Phase where
  | idle | window | muteVote | muted | update | strumVote | committing | failed | uncertain
  deriving DecidableEq, Repr

/-- The PHASE code (R237). -/
def Phase.code : Phase → Nat
  | .idle => 0
  | .window => 1
  | .muteVote => 2
  | .muted => 3
  | .update => 4
  | .strumVote => 5
  | .committing => 6
  | .failed => 7
  | .uncertain => 8

/-- A START or HALT command held until a phase ends (R235). -/
structure StartReq where
  halt : Bool
  cores : BitVec 96
  threads : Word
  entry : Word
  arg : DWord
  deriving DecidableEq, Repr

/-- The STEP block (R213 to R237): counters, bank selectors, latches of R221, local bitmaps,
both votes, silence, commands held back, the action that has ended with its STATUS (R216). -/
structure StepSt where
  phase : Phase := .idle
  torn : Bool := false
  committed : DWord := 0
  loPending : Option Word := none
  attempt : Word := 0
  micro : Nat := 0
  bankSel : BitVec 16 := 0
  memUe : Bool := false
  rstLatch : Bool := false
  spoilAny : BitVec 4096 := 0
  spoilSrc : BitVec 4096 := 0
  muteDone : Bool := false
  muted : Bool := false
  muteTimeout : Bool := false
  strumDone : Bool := false
  strumFailed : Bool := false
  strumTimeout : Bool := false
  votedReady : Bool := false
  muteLocal : DWord := 0
  muteJob : DWord := 0
  strumLocal : DWord := 0
  strumJob : DWord := 0
  nfCore : Nat := 0x7F
  nfCores : Nat := 0
  nfBucket : Nat := 0xFFF
  nfIndex : Nat := 0xFFFFFFFF
  voteAt : Nat := 0
  voteCount : DWord := 0
  voteLimit : Nat := 0
  lateVotes : List (BitVec 16) := []
  muteTime : Nat := 0
  strumTime : Nat := 0
  silNz : BitVec 1024 := 0
  silFs : BitVec 1024 := 0
  silCnt : Map Nat := []
  warned : BitVec 1024 := 0
  deferred : List StartReq := []
  actEnd : Option (Nat × Nat) := none
  deriving DecidableEq, Repr

/-! ## Halves and sideband (R17 to R20) -/

/-- A half. `lead` is its role, `up` that its management controller runs, `armed` that the 100 µs rule of R18 is armed,
`lastHb` when the last heartbeat or echo came, `since` when its reset was released, `again` that a reset ordered in Idle
or Rest waits for Run. -/
structure HalfSt where
  inReset : Bool := false
  lead : Bool := false
  up : Bool := false
  held : Bool := false
  hbLost : Bool := false
  armed : Bool := false
  lastHb : Nat := 0
  since : Nat := 0
  deriving DecidableEq, Repr

/-- The sideband: heartbeats on their way with their epochs, echoes on their way, when the lead last sent (R18). -/
structure SideSt where
  hb : List Word := []
  echo : Nat := 0
  sentAt : Option Nat := none
  deriving DecidableEq, Repr

/-! ## Start-up (R430, R431, R455 to R457) -/

/-- Start-up. `slot` is the firmware slot that the boot ROM checks next while none runs, `tried` how many it has refused,
`fw` that management firmware runs, `coreFw` that the core firmware is loaded, `done` that start-up is complete. `warm`
says that the reset before the release was a module warm reset. -/
structure BootSt where
  released : Bool := false
  at_ : Nat := 0
  warm : Bool := false
  slot : Nat := 0
  tried : Nat := 0
  failed : Nat := 0
  fw : Bool := false
  coreFw : Bool := false
  done : Bool := false
  strap : BitVec 10 := 0
  strapFault : Bool := false
  leadState : Nat := 0
  deriving DecidableEq, Repr

/-! ## Power (R417 to R436) -/

/-- Power states of the module (R419); `off` is Off. -/
inductive PState where
  | run | idle | rest | off
  deriving DecidableEq, Repr

/-- The code of a power state (R436). -/
def PState.code : PState → Nat
  | .run => 0
  | .idle => 1
  | .rest => 2
  | .off => 3

/-- What the power and temperature sensors have shown (R436): PWR_INPUT, the average and the peak of PWR_POWER, the energy
in mJ, the three temperatures of PWR_TEMP that no stack gives, and the millisecond of the latest update. -/
structure Meas where
  input : Word := 0
  avg : Nat := 0
  peak : Nat := 0
  energy : DWord := 0
  temps : BitVec 24 := 0
  at_ : Nat := 0
  deriving DecidableEq, Repr

/-- Power control. `target` is the state being entered, `thermN` that THERM_TRIP_N is driven low, `tripped` that a trip holds
the power stage off, `lowAt` when PWR_EN fell, `inSince` the later of PWR_EN rising
and the input entering its range (R417, R479), `resets` the resets that wait for Run (R429), `due` that a warm reset of
MOD_RESET_N or RESET is asserted and waits for its release. -/
structure PwrSt where
  pwrEn : Bool := true
  pwrGood : Bool := true
  resetN : Bool := true
  inRange : Bool := true
  inSince : Nat := 0
  run : FuncSt := { st := .on }
  target : Nat := 0
  trip : BitVec 4 := 0
  sensor : Nat := 0
  thermN : Bool := false
  tripped : Bool := false
  lowAt : Nat := 0
  cause : Nat := 0
  stkEn : BitVec 12 := 0xFFF
  resets : List (Nat × Nat) := []
  energyHi : Word := 0
  meas : Meas := {}
  deriving DecidableEq, Repr

/-! ## Clocks (R400 to R416) -/

/-- A clock selection: source, link, fallback (R401, R407). -/
structure ClkSel where
  source : Nat := 0
  link : Nat := 0
  fallback : Bool := false
  deriving DecidableEq, Repr

/-- Clocks. `input` is the root PLL input in the code of CLK_STAT, `goal` the multiplier a slew goes to, `clear` that the end
of the slew clears the flags of R407; `deferred` is a selection that waits for a switch in progress, `held` one of an image
that waits for its link. `fm` and `fmAt` are the meter. `boot` says that the crystal is still awaited (R403). -/
structure ClkSt where
  mult : Nat := 57
  goal : Nat := 57
  input : Nat := 3
  slewing : Bool := false
  clear : Bool := false
  boot : Bool := true
  xtalOk : Bool := false
  refclkOk : Bool := false
  locked : Bool := false
  sel : ClkSel := {}
  deferred : Option ClkSel := none
  held : Option ClkSel := none
  refLost : Bool := false
  fbAct : Bool := false
  pllFault : Bool := false
  gates : Map FuncSt := []
  fm : Bool := false
  fmAt : Nat := 0
  fmSteady : Bool := false
  fmDone : Bool := false
  fmErr : Bool := false
  fmCount : Nat := 0
  timeHi : Word := 0
  deriving DecidableEq, Repr

/-! ## Ownership and commands (R350 to R371) -/

/-- The owner record (R364); HELD is kept by the halves. `sess` is the slot of the owner's session and `sid` its number,
`leaseS` is LEASE_S of the CLAIM (R366). -/
structure OwnRec where
  owned : Bool := false
  epoch : Word := 0
  key : Option (BitVec 128) := none
  sess : Option Nat := none
  sid : DWord := 0
  deadline : Nat := 0
  leaseS : Nat := 0
  deriving DecidableEq, Repr

/-- A command frame's content: slot, session, REQ_ID, EPOCH, opcode, arguments (R357). -/
structure Cmd where
  slot : Nat
  sid : DWord
  reqId : BitVec 16
  epoch : Word
  op : Nat
  args : List Byte
  deriving DecidableEq, Repr

/-- A response (R357). -/
structure Resp where
  op : Nat
  reqId : BitVec 16
  status : Nat
  epoch : Word
  data : List Byte := []
  deriving DecidableEq, Repr

/-- A change of the owner record that awaits the follower (R364): the new record, when it was sent, the command to answer
with its data and with the counter to raise, whether it is a lapse. `target` is the session that a HANDOVER names. -/
structure MirrorPend where
  new_ : OwnRec
  at_ : Nat
  cmd : Option Cmd := none
  data : List Byte := []
  counter : Nat := 0
  lapse : Bool := false
  target : Option (Nat × DWord) := none
  deriving DecidableEq, Repr

/-- A Forming Image: its bytes, the minor version, its sections by TYPE with the offset of their bodies (R373 to R375). -/
structure Img where
  b : List Byte := []
  minor : Nat := 0
  secs : List (Nat × Nat) := []
  deriving DecidableEq, Repr

/-- A Forming Image that is being loaded (R381 to R383): the command to answer, the locked bytes, when the load began and when
it ends, the image, what becomes visible as it ends. -/
structure LoadSt where
  cmd : Cmd
  addr : Nat
  len : Nat
  since : Nat
  until_ : Nat
  m : Img := {}
  img : ImgSt
  regions : List Region
  deriving DecidableEq, Repr

/-- The part of a critical command that the follower carries out (R16, R360); `st` is the status of the lead's own part, `done`
the pairs of a WRITE_REG done so far. -/
inductive Fwd where
  | start (r : StartReq)
  | halt (cores : BitVec 96) (st : Nat)
  | coreReset (c : Nat)
  | halfReset
  | linkReset (l : Nat)
  | park (links : Nat)
  | rejoin (links st : Nat)
  | regs (pairs : List (Word × Word)) (done st : Nat)
  | mem (addr : Nat) (data : List Byte)
  | load (l : LoadSt)
  | quiesce
  | resume
  | power (state : Nat)
  deriving DecidableEq, Repr

/-- A record to stream to a session: a record of the ring area (main or reserved) by its write count, one of the trace buffer,
or a GAP of stage 2 with its count of losses, mask and first time (R443, R445). -/
inductive EvItem where
  | ring (rsv : Bool) (n : Nat) (time : DWord) (cls : Nat) (recs : Nat)
  | trace (idx : Nat) (n : Nat) (time : DWord) (recs : Nat)
  | gap (n mask : Nat) (first : DWord)
  deriving DecidableEq, Repr

/-- States of a session slot (R372). -/
inductive SessState where
  | free | setup | open_
  deriving DecidableEq, Repr

/-- A session slot (R352 to R357, R443): the session number, agreed version, key id, address pair, the largest counter accepted
and the last one sent, when it began or last heard a valid frame, the bodies of HELLO and HELLO_REPLY, KEY fragments, the
keys of both directions, kept responses, subscription, records to stream. -/
structure SessSt where
  st : SessState := .free
  id : DWord := 0
  ver : Byte := 0
  key : BitVec 128 := 0
  addr : AddrPair := ⟨0, 0⟩
  cin : DWord := 0
  cout : DWord := 0
  at_ : Nat := 0
  hello : List Byte := []
  reply : List Byte := []
  frags : Map (Option (List Byte)) := []
  fragN : Nat := 0
  c2m : List Byte := []
  m2c : List Byte := []
  kept : List Resp := []
  classes : BitVec 6 := 0
  filter : BitVec 16 := 0xFFFF
  queue : List EvItem := []
  deriving DecidableEq, Repr

/-- What the module answers on RoCE (R346, R347): an acknowledgement, a NAK, an RNR NAK, a READ response, a CNP. -/
inductive RoceOut where
  | ack | nakSeq | nakInvalid | nakAccess | nakOp | rnr | read (pos : RocePos) (data : List Byte) | cnp
  deriving DecidableEq, Repr

/-- Where a tagged frame of a session goes: the session number, agreed version, key of its direction, address pair. -/
structure Peer where
  id : DWord
  ver : Byte
  key : List Byte
  addr : AddrPair
  deriving DecidableEq, Repr

def SessSt.peer (x : SessSt) : Peer := ⟨x.id, x.ver, x.m2c, x.addr⟩

/-- What leaves the module on the host port, the I3C bus or as a record of it: the model's record of its outputs. -/
inductive OutMsg where
  | helloReply (dest : AddrPair) (session : DWord) (body : List Byte)
  | keyReply (dest : Peer) (status : Nat)
  | resp (dest : Peer) (counter : DWord) (r : Resp)
  | event (dest : Peer) (counter : DWord) (recs : List (List Byte))
  | close (dest : Peer) (counter : DWord) (reason : Nat)
  | roce (qpn : Word) (psn : BitVec 24) (o : RoceOut)
  | arp (dest ip : BitVec 32)
  | neighbor (dest ip : IpAddr)
  | echo (a : AddrPair) (data : List Byte)
  | dhcpRequest (ip : BitVec 32)
  | unreachable (a : AddrPair)
  | pause (prio : Nat) (xoff : Bool)
  | i3c (data : List Byte)
  | regValue (addr value : Word)
  | regStatus (addr : Word) (status : Nat)
  deriving DecidableEq, Repr

/-- Ownership, sessions and commands: the record, the follower's mirror, the change in flight, the causes of HELD, the lease
left in HELD, the queue of critical commands and the reads beside it, the forwarded part in flight, the image being applied. `hello` counts the HELLO
frames answered in the second that began at `helloAt`. -/
structure CtlSt where
  own : OwnRec := {}
  mirror : OwnRec := {}
  pend : Option MirrorPend := none
  causes : BitVec 5 := 0
  lapsed : Bool := false
  left : Nat := 0
  sess : Map SessSt := []
  cmdq : List Cmd := []
  readq : List Cmd := []
  fwd : Option (Cmd × Fwd) := none
  load : Option LoadSt := none
  out : List OutMsg := []
  helloAt : Nat := 0
  hello : Nat := 0
  deriving DecidableEq, Repr

/-- The load that is in progress, also while its part is on the way to the follower (R381, R399). -/
def CtlSt.loading (k : CtlSt) : Option LoadSt :=
  match k.load, k.fwd with
  | some l, _ => some l
  | none, some (_, .load l) => some l
  | _, _ => none

/-! ## Host port (R341 to R349) -/

/-- A queue pair (R346, R348, R349): its next PSN, ring, the message being received, an RDMA WRITE in progress (next address,
rkey, bytes left), its READ response rate in Mb/s (R345), when a CNP last came and last left. -/
structure QpSt where
  exists_ : Bool := false
  qpn : Nat := 0
  peer : IpAddr := 0
  peerQpn : Word := 0
  pmtu : Nat := 0
  slotLog2 : Nat := 8
  slotCount : Nat := 1
  ring : Nat := 0
  notify : BitVec 16 := 0
  epsn : BitVec 24 := 0
  err : Bool := false
  nextSlot : Nat := 0
  seq : Word := 0
  msg : Option (List Byte) := none
  wr : Option (Nat × Word × Nat) := none
  rate : Nat := 0
  cnpRx : Option Nat := none
  cnpTx : Option Nat := none
  deriving DecidableEq, Repr

/-- A registered memory region (R347). -/
structure MrSt where
  exists_ : Bool := false
  rkey : Word := 0
  addr : Nat := 0
  len : Nat := 0
  write : Bool := false
  read : Bool := false
  deriving DecidableEq, Repr

/-- The host port: up, lane mode, when training began, addresses, the bytes in the receive buffers of both classes (R344),
whether XOFF was sent for the bulk priority, priorities paused by the other end with the bulk frames that wait (R345), queue
pairs and regions. -/
structure HostSt where
  up : Bool := false
  four : Bool := false
  training : Bool := false
  trainAt : Nat := 0
  ip6 : Option (BitVec 64) := none
  dhcp : BitVec 32 := 0
  fillMgmt : Nat := 0
  fillBulk : Nat := 0
  xoff : Bool := false
  paused : BitVec 8 := 0
  waiting : List OutMsg := []
  qps : Map QpSt := []
  mrs : Map MrSt := []
  deriving DecidableEq, Repr

/-! ## Security (R453 to R472) -/

/-- A firmware slot: version, component SVNs, whether valid, when it was marked to boot (R455, R458, R460). -/
structure SlotSt where
  ver : BitVec 16 := 0
  svnM : Nat := 0
  svnC : Nat := 0
  valid : Bool := false
  coreDig : BitVec 384 := 0
  deriving DecidableEq, Repr

/-- A firmware update (R460): state 0 IDLE, 1 RECEIVING, 2 COMMITTING; the bytes staged, the session that sent BEGIN. -/
structure FwuSt where
  st : Nat := 0
  kind : Nat := 0
  last : Nat := 0
  total : Nat := 0
  data : List Byte := []
  sess : Option (Nat × DWord) := none
  deriving DecidableEq, Repr

/-- The security block: slots, fuses, update, anchor store, measurements and log (R461), debug mode (R464 to R468). -/
structure SecSt where
  slot0 : SlotSt := { ver := 0x308, valid := true }
  slot1 : SlotSt := {}
  next : Nat := 0
  run : Nat := 0
  fallback : Bool := false
  romOnly : Bool := false
  coreFwBad : Bool := false
  fuseM : Nat := 0
  fuseC : Nat := 0
  fwu : FwuSt := {}
  setVer : Nat := 0
  trust : Nat := 1
  recovery : Nat := 1
  anchorDig : BitVec 384 := 0
  rom : BitVec 384 := 0
  mgmt : BitVec 384 := 0
  coreFw : BitVec 384 := 0
  log : List (List Byte) := []
  logCount : Nat := 0
  logDig : BitVec 384 := 0
  dbgSince : Bool := false
  dbgUntil : Nat := 0
  dbgKey : BitVec 128 := 0
  chal : BitVec 128 := 0
  cert : List Byte := []
  authFails : Nat := 0
  deriving DecidableEq, Repr

/-- What is fused at manufacture (R12, R25, R343): serial, MAC, the sites of the cores where they are not in order. -/
structure FuseSt where
  serial : DWord := 0
  mac : BitVec 48 := 0
  sites : List Nat := []
  deriving DecidableEq, Repr

/-- The I3C target (R451). -/
structure I3cSt where
  dyn : Option DynAddr := none
  sel : Option Word := none
  err : Bool := false
  deriving DecidableEq, Repr

end Sys2Proof.Machine
end

