-- ==== Sys2Proof/Machine/State.lean ====
section
/-! DEFINITION. The state of the module: every piece the manual names, as plain data, with the queue of commands. -/

namespace Sys2Proof.Machine

/-- Why a step can stop with a fault. The module itself never stops: its errors are states (R136, R139, R369). -/
inductive Fault where
  /-- Raised by no command: the manual gives every command of the table an effect. -/
  | unreachable
  deriving DecidableEq, Repr

/-- Why a command can be refused by the model. -/
inductive Refusal where
  /-- Raised by an arm of exec whose command has no meaning in the model yet. Safe: nothing is claimed of it. -/
  | notModelled (mnemonic : String)
  deriving DecidableEq, Repr

/-- The module. -/
structure State where
  /-- The commands waiting, first in, first out (block form of the task). -/
  pending : List Instr := []
  /-- TIME cycles that have passed; timers are measured on it (R409). -/
  now : Nat := 0
  /-- The count of nanoseconds (R409). -/
  timeCount : DWord := 0
  /-- The model's own counter that numbers free values (log 4). -/
  freeCtr : Nat := 0
  /-- Registers that hold their own value, by control address; an unlisted one holds its table's reset value. -/
  regs : Map Word := []
  /-- Bytes of SRAM by module address and of the stacks from 2^44 (R165, R169, R173); an unlisted one reads 0. -/
  mem : Map Byte := []
  ecc : List EccLoc := []
  ceSeen : Map Nat := []
  /-- Start of the counting window of stack j, of the SRAM tiers at 12 (R182). -/
  ceWin : Map Nat := []
  regions : List Region := [{ size := 2304 }]
  buckets : Map Bucket := []
  bkt : Map BktCnt := []
  stks : Map StackSt := []
  bridge : BridgeSt := {}
  ev : EvSt := {}
  cores : Map CoreSt := []
  step : StepSt := {}
  img : ImgSt := {}
  col : ColSt := {}
  rt : RtSt := {}
  links : Map LinkSt := []
  halves : Map HalfSt := []
  side : SideSt := {}
  pstate : PState := .run
  pwr : PwrSt := {}
  clk : ClkSt := {}
  boot : BootSt := {}
  /-- Bypass a is closed (R272). -/
  bypass : BitVec 3 := 7
  ctl : CtlSt := {}
  host : HostSt := {}
  sec : SecSt := {}
  fuse : FuseSt := {}
  i3c : I3cSt := {}
  debugOn : Bool := false
  deriving DecidableEq, Repr

/-- The module right after module cold reset (R426, R430, R431); that reset has drawn a debug challenge, a free value (R466). -/
def State.reset : State := { freeCtr := 1, sec := { chal := Config.freeChallenge 0 } }

end Sys2Proof.Machine
end

