-- ==== Sys2Proof/Machine/Ops.lean ====
section
/-! DEFINITION. The named operations shared by every family: stored registers and counters, posting an event (R438,
R444), memory by module address (R165 to R173) with its error correction (R181 to R185), cores and their step-fault
bit (R138), the tick of TIME. -/

namespace Sys2Proof.Machine

/-! ## Stored registers -/

/-- Control addresses of the blocks with instances (R23). -/
def aStk (j off : Nat) : Nat := 0xC0000 + j * 0x1000 + off
def aLnk (i off : Nat) : Nat := 0x80000 + i * 0x1000 + off
def aHlf (h off : Nat) : Nat := 0x10000000 + h * 0x08000000 + off
def aCore (c off : Nat) : Nat := 0x20000000 + c * 0x10000 + off
def aArr (c off : Nat) : Nat := 0x20004000 + c * 0x10000 + off
def aVec (c off : Nat) : Nat := 0x20008000 + c * 0x10000 + off

/-- The stored value of the register at control address `a`. -/
def State.raw (s : State) (a : Nat) : Word :=
  match mapFind s.regs a with
  | some v => v
  | none => resetOf a

/-- Store a register; the reset value is not listed. -/
def State.setRaw (s : State) (a : Nat) (v : Word) : State :=
  { s with regs := if v = resetOf a then mapDel s.regs a else mapIns s.regs a v }

/-- Add `d` to a saturating counter of `w` bits. -/
def State.bumpBy (s : State) (a w d : Nat) : State := s.setRaw a (BitVec.ofNat 32 (satAdd w (s.raw a).toNat d))

/-- Add 1 to a saturating 32-bit counter. -/
def State.bump (s : State) (a : Nat) : State := s.bumpBy a 32 1

/-- Add `d` to a counter that wraps. -/
def State.wrapBy (s : State) (a d : Nat) : State := s.setRaw a (s.raw a + BitVec.ofNat 32 d)

/-! ## Events (R438 to R446) -/

/-- A source's record number (R438). -/
def srcKey (block inst : Nat) : Nat := block * 256 + inst

/-- A record of this moment (R438). -/
def State.mkRec (s : State) (half block inst : Nat) (cls : EvClass) (code : Nat) (pl : List Byte)
    (more : Option (List Byte)) : Rec :=
  { time := s.timeCount, step := BitVec.ofNat 48 s.step.committed.toNat
    attempt := if 0xFFFF < s.step.attempt.toNat then 0xFFFF else BitVec.ofNat 16 s.step.attempt.toNat
    cls := cls, half := half, block := block, inst := inst, code := code, payload := pl, more := more }

/-- The token bucket index of a class: ERROR 0, WARNING 1, NOTICE 2, TRACE 3 (R452). -/
def limitIdx (c : EvClass) : Nat := c.code - 2

/-- Note a loss at a stage (R445). -/
def Loss.note (l : Loss) (r : Rec) (now : Nat) : Loss :=
  if l.n = 0 then ⟨1, 2 ^ r.cls.code, r.time, now⟩ else { l with n := l.n + 1, mask := l.mask ||| 2 ^ r.cls.code }

/-- Whether a record passes no limit: FATAL, SECURITY and GAP (R444). -/
def Rec.free (r : Rec) : Bool := decide (r.cls = .fatal) || decide (r.cls = .security) || r.gap

/-- Put a record into a source's queue, numbered in order of arrival (R442, R446): the other records of a queue fill 12 of its 16
entries. -/
def State.enqueue (s : State) (r : Rec) : State :=
  let k := srcKey r.block r.inst
  let q := mapGet {} s.ev.src k
  if r.free = true ∨ (q.queue.filter fun x => !x.free).length < 12 then
    { s with ev := { s.ev with
        src := mapSet {} s.ev.src k { q with queue := q.queue ++ [{ r with seq := s.ev.arrivals, came := s.now }] }, arrivals := s.ev.arrivals + 1 } }
  else
    let s1 := s.bump (0x50040 + 4 * limitIdx r.cls)
    { s1 with ev := { s1.ev with src := mapSet {} s1.ev.src k { q with loss1 := q.loss1.note r s.now } } }

/-- The token-bucket stage of a record, then its queue; `win` opens a coalescing window (R444). -/
def State.limitPost (s : State) (r : Rec) : State :=
  let k := srcKey r.block r.inst
  let q := mapGet {} s.ev.src k
  let i := limitIdx r.cls
  let lim := s.raw (0x50020 + 4 * i)
  let t := mapGet {} q.tokens i
  let used := t.used - field lim 15 0 * (s.now - t.at_)
  if used + 1000000 ≤ field lim 31 16 * 1000000 then
    let w : Window := ⟨r.code, s.now + 1000 * field (s.raw 0x50014) 15 0, 0, r⟩
    let q1 := { q with tokens := mapSet {} q.tokens i ⟨used + 1000000, s.now⟩, windows := q.windows ++ [w] }
    State.enqueue { s with ev := { s.ev with src := mapSet {} s.ev.src k q1 } } r
  else
    let s1 := s.bump (0x50040 + 4 * i)
    let q1 := { q with tokens := mapSet {} q.tokens i ⟨used, s.now⟩, loss0 := q.loss0.note r s.now }
    { s1 with ev := { s1.ev with src := mapSet {} s1.ev.src k q1 } }

/-- End the window of a code that closed before now and has not been ended yet: its summary is posted first (R444). -/
def State.endLate (s : State) (k code : Nat) : State :=
  let q := mapGet {} s.ev.src k
  match takeFirst (fun (w : Window) => w.code == code && decide (w.closes < s.now)) q.windows with
  | none => s
  | some (w, l) =>
    let s1 := { s with ev := { s.ev with src := mapSet {} s.ev.src k { q with windows := l } } }
    if w.count = 0 then s1 else s1.limitPost { w.latest with rep := min 65535 w.count }

/-- Post a record: coalescing, token bucket, queue; FATAL and SECURITY pass neither stage (R444). -/
def State.postRec (s0 : State) (r : Rec) : State :=
  if r.cls = .fatal ∨ r.cls = .security then s0.enqueue r
  else
    let k := srcKey r.block r.inst
    let s := s0.endLate k r.code
    let q := mapGet {} s.ev.src k
    if q.windows.any (fun w => w.code = r.code) then
      let ws := q.windows.map fun w => if w.code = r.code then { w with count := w.count + 1, latest := r } else w
      let s1 := s.bump 0x50054
      { s1 with ev := { s1.ev with src := mapSet {} s1.ev.src k { q with windows := ws } } }
    else s.limitPost r

/-- Post an event of R440 from a block, with its payload bytes. -/
def State.post (s : State) (half block inst : Nat) (cls : EvClass) (code : Nat) (pl : List Byte)
    (more : Option (List Byte) := none) : State :=
  s.postRec (s.mkRec half block inst cls code pl more)

/-! ## Cores -/

def State.core (s : State) (c : Nat) : CoreSt := mapGet {} s.cores c
def State.setCore (s : State) (c : Nat) (k : CoreSt) : State := { s with cores := mapSet {} s.cores c k }
def State.modCore (s : State) (c : Nat) (f : CoreSt → CoreSt) : State := s.setCore c (f (s.core c))
def CoreSt.thread (k : CoreSt) (t : Nat) : ThreadSt := mapGet {} k.thr t
def CoreSt.setThread (k : CoreSt) (t : Nat) (x : ThreadSt) : CoreSt := { k with thr := mapSet {} k.thr t x }
def State.thread (s : State) (c t : Nat) : ThreadSt := (s.core c).thread t
def State.setThread (s : State) (c t : Nat) (x : ThreadSt) : State := s.modCore c fun k => k.setThread t x
def State.modThread (s : State) (c t : Nat) (f : ThreadSt → ThreadSt) : State := s.setThread c t (f (s.thread c t))

/-- The half of a core (R12). -/
def halfOf (c : Nat) : Nat := c / 48

/-- Set a core's step-fault bit; the first source since the last clearing is kept (R138). -/
def State.stepFault (s : State) (c src thr code : Nat) : State :=
  s.modCore c fun k =>
    if k.stepFault then k else { k with stepFault := true, sfSource := src, sfThread := thr, sfCode := code }

/-- The next free value of the model's counter (log 4). -/
def State.bumpFree (s : State) (n : Nat) : State := { s with freeCtr := s.freeCtr + n }

/-! ## Addresses (R165 to R173) -/

def sliceBase (c : Nat) : Nat := c * 0x04000000
def sliceSize : Nat := 0x04000000
def commonsBase : Nat := 0x000200000000
def dramBase : Nat := 0x010000000000
def dramEnd : Nat := 0x019000000000
def unit256 : Nat := 0x10000000

/-- Number of stacks of a region's policy (R169). -/
def Region.w (r : Region) : Nat := if r.policy = 0 then 12 else if r.policy = 1 then 6 else 1

/-- Entry `i` of a region's stack list (R169). -/
def Region.stack (r : Region) (i : Nat) : Nat :=
  if r.policy = 0 then i / 2 + (i % 2) * 6 else if r.policy = 1 then r.target * 6 + i else r.target

/-- Place of stack `j` in a region's stack list; none where the region does not use the stack. -/
def Region.entry (r : Region) (j : Nat) : Option Nat :=
  (upto r.w).find? fun i => r.stack i = j

/-- First byte of a region in the address map. -/
def Region.lo (r : Region) : Nat := dramBase + r.base * unit256

/-- Bytes of a region on each of its stacks, without metadata (R170). -/
def Region.span (r : Region) : Nat := r.size / r.w * unit256

/-- The DRAM region that holds an address (R165). -/
def regionAt (rs : List Region) (a : Nat) : Option Region :=
  if a < dramBase ∨ dramEnd ≤ a then none else rs.find? fun r => decide (r.lo ≤ a) && decide (a < r.lo + r.size * unit256)

/-- Stack and byte of a DRAM address in its region (R169). -/
def Region.place (r : Region) (a : Nat) : Nat × Nat :=
  let x := a - r.lo
  let g := x / 4096
  (r.stack (g % r.w), r.offset * unit256 + g / r.w * 4096 + x % 4096)

/-- Key of byte `b` of stack `j`. -/
def stackKey (j b : Nat) : Nat := 2 ^ 44 + j * 2 ^ 36 + b

/-- Key of the byte at a module address; none where the address is undecoded (R165). -/
def keyOf (rs : List Region) (a : Nat) : Option Nat :=
  if a < 0x000180000000 then some a
  else if commonsBase ≤ a ∧ a < 0x000280000000 then some a
  else
    match regionAt rs a with
    | none => none
    | some r => let p := r.place a; some (stackKey p.1 p.2)

/-- The stack of a key; none for SRAM. -/
def stackOfKey (k : Nat) : Option Nat := if k < 2 ^ 44 then none else some ((k - 2 ^ 44) / 2 ^ 36)

/-- The half that serves a key. -/
def halfOfKey (k : Nat) : Nat :=
  match stackOfKey k with
  | some j => j / 6
  | none => if k < 0x000180000000 then k / sliceSize / 48 else if k < 0x000240000000 then 0 else 1

/-- The protected unit of a key: 8 B of SRAM, 64 B of a stack (R181). -/
def unitKey (k : Nat) : Nat := if k < 2 ^ 44 then k / 8 * 8 else k / 64 * 64

/-- Key of the metadata of the beat that holds a carrier address (R173). -/
def Region.metaKey (r : Region) (a : Nat) : Nat :=
  let p := r.place a
  stackKey p.1 (r.offset * unit256 + r.span + (p.2 - r.offset * unit256) / 256 * 4)

/-- The module address of a key through the region table; a metadata byte has its beat's (R169, R173). -/
def addrOfKey (rs : List Region) (k : Nat) : Option Nat :=
  match stackOfKey k with
  | none => some k
  | some j =>
    let b := (k - 2 ^ 44) % 2 ^ 36
    (rs.findSome? fun r =>
      match r.entry j with
      | none => none
      | some i =>
        let o := r.offset * unit256
        let at_ := fun d => r.lo + (d / 4096 * r.w + i) * 4096 + d % 4096
        if o ≤ b ∧ b < o + r.span then some (at_ (b - o))
        else if r.carrier ∧ o + r.span ≤ b ∧ b < o + r.span + r.span / 64 then some (at_ ((b - o - r.span) / 4 * 256))
        else none)

/-- The class of an address for a footprint (R118): a slice, a commons, the DRAM, or undecoded. -/
def regionClass (rs : List Region) (a : Nat) : Option Nat :=
  match keyOf rs a with
  | none => none
  | some k =>
    if a < 0x000180000000 then some (a / sliceSize)
    else if a < 0x000240000000 then some 96
    else if a < 0x000280000000 then some 97
    else if k < 2 ^ 44 then none else some 98

/-- How an access to a place ends (R165, R172). -/
inductive Acc where
  | ok | addr | bridge | halfReset | stackOff | resting
  deriving DecidableEq, Repr

def State.half (s : State) (h : Nat) : HalfSt := mapGet {} s.halves h
def State.modHalf (s : State) (h : Nat) (f : HalfSt → HalfSt) : State := { s with halves := mapMod {} s.halves h f }
def State.stack (s : State) (j : Nat) : StackSt := mapGet {} s.stks j
def State.modStack (s : State) (j : Nat) (f : StackSt → StackSt) : State := { s with stks := mapMod {} s.stks j f }

/-- The outcome of an access from half `h` to key `k` (R172). SRAM has no access in Rest (R419, log 51); self-refresh of a stack
changes no result (R184). -/
def State.accKey (s : State) (h k : Nat) : Acc :=
  let g := halfOfKey k
  if g ≠ h ∧ s.bridge.dataUp = false then .bridge
  else if (s.half g).inReset then .halfReset
  else
    match stackOfKey k with
    | none => if s.pstate = .rest then .resting else .ok
    | some j => if (s.stack j).f.st = .on then .ok else .stackOff

/-- The outcome of an access from half `h` to address `a` (R165, R172). -/
def State.acc (s : State) (h a : Nat) : Acc :=
  match keyOf s.regions a with
  | none => .addr
  | some k => s.accKey h k

/-- The first outcome that is not ok over `n` bytes. -/
def State.accRange (s : State) (h a n : Nat) : Acc :=
  match (seqFrom a n).find? (fun x => decide (s.acc h x ≠ .ok)) with
  | none => .ok
  | some x => s.acc h x

/-- `n` bytes of payload cross the bridge from half `g` to half `h` in class `k` (R13, R189): 0 router, 1 event records,
2 memory. The flit in hand has passed (R186). -/
def State.cross (s : State) (g h k n : Nat) : State :=
  if g = h ∨ n = 0 then s
  else
    let i := 3 * g + k
    { s with bridge := { s.bridge with replays := 0, bytes := setAt s.bridge.bytes i (nth 0 s.bridge.bytes i + n) } }

/-- Bytes of a range that the half other than `h` serves. -/
def State.farBytes (s : State) (h a n : Nat) : Nat :=
  ((seqFrom a n).filter fun x => match keyOf s.regions x with | none => false | some k => decide (halfOfKey k ≠ h)).length

/-! ## Bytes -/

/-- The byte at a module address; an undecoded address reads 0 and is never reached after the checks of R165. -/
def State.byte (s : State) (a : Nat) : Byte :=
  match keyOf s.regions a with
  | none => 0
  | some k => mapGet 0 s.mem k

/-- `n` bytes from a module address. -/
def State.bytes (s : State) (a n : Nat) : List Byte := (seqFrom a n).map s.byte

/-- Write bytes by module address, without metadata. -/
def writeBytes (rs : List Region) : Map Byte → Nat → List Byte → Map Byte
  | m, _, [] => m
  | m, a, b :: r =>
    let m1 := match keyOf rs a with
      | none => m
      | some k => mapSet 0 m k b
    writeBytes rs m1 (a + 1) r

/-- Write bytes by key. -/
def writeKeys : Map Byte → Nat → List Byte → Map Byte
  | m, _, [] => m
  | m, k, b :: r => writeKeys (mapSet 0 m k b) (k + 1) r

/-- The tuning word of a beat (R150): the sum of (i + 1) * x_i modulo 65521. -/
def tuneWord (beat : List Byte) : Nat :=
  let t := (upto 64).foldl (fun (acc : Int) (i : Nat) => acc + ((i : Int) + 1) * sgn 32 (leAt beat (4 * i) 4)) 0
  (t % 65521).toNat

/-- Metadata of a beat: tuning word and SPOILED (R173). -/
def State.beatMeta (s : State) (r : Region) (a : Nat) : Nat × Bool :=
  let k := r.metaKey a
  let m := leNat ((upto 4).map fun i => mapGet 0 s.mem (k + i))
  (m % 65536, m.testBit 16)

/-- Set the metadata of a beat. -/
def State.setMeta (s : State) (r : Region) (a word : Nat) (spoiled : Bool) : State :=
  { s with mem := writeKeys s.mem (r.metaKey a) (leBytes 4 (word + b2n spoiled * 65536)) }

/-- Recompute the tuning word of a carrier beat and clear SPOILED: the last row of R173. -/
def State.refreshBeat (s : State) (a : Nat) : State :=
  match regionAt s.regions a with
  | none => s
  | some r => if r.carrier then s.setMeta r a (tuneWord (s.bytes (a / 256 * 256) 256)) false else s

/-- The beats (256 B) that `n` bytes from `a` touch. -/
def beatsOf (a n : Nat) : List Nat := if n = 0 then [] else (seqFrom (a / 256) ((a + n - 1) / 256 + 1 - a / 256)).map (· * 256)

/-- Write bytes, then the metadata of every carrier beat they touch (R173). -/
def State.store (s : State) (a : Nat) (l : List Byte) : State :=
  let s1 := { s with mem := writeBytes s.regions s.mem a l }
  if a < dramBase then s1 else (beatsOf a l.length).foldl State.refreshBeat s1

/-! ## Error correction (R181 to R185) -/

/-- The unit keys that `n` bytes from `a` touch. -/
def State.unitsOf (s : State) (a n : Nat) : List Nat := (seqFrom a n).filterMap fun x => (keyOf s.regions x).map unitKey

/-- The INSTANCE of a stack event: the stack, 0xFF for SRAM (R438). -/
def memInst (k : Nat) : Nat := match stackOfKey k with | some j => j | none => 0xFF

/-- The module address that a report names; a location outside every region has none, so a free value (log 4). -/
def State.errAddr (s : State) (k : Nat) : Nat :=
  match addrOfKey s.regions k with
  | some a => a
  | none => (Config.freeWord s.freeCtr).toNat % 2 ^ 41

/-- Count, correct and report a corrected error at unit `k` (R182). -/
def State.corrected (s : State) (k : Nat) : State :=
  let n := mapGet 0 s.ceSeen k + 1
  let a := match stackOfKey k with | some j => aStk j 0x004 | none => 0xCC000
  let s1 := { s.bump a with ecc := s.ecc.filter (fun e => e.key ≠ k), ceSeen := mapSet 0 s.ceSeen k n }
  let cls : EvClass := if n = 4 then .warning else .notice
  s1.post (halfOfKey k) 0x0C (memInst k) cls (if n = 4 then 2 else 1) (leBytes 6 (s.errAddr k))

/-- Report an uncorrectable error at unit `k`: counter, address, latch of R221, event (R185). `kind` is KIND of R187,
`req` the requesting core or 0x7F. -/
def State.uncorrectable (s : State) (k kind req : Nat) : State :=
  let a := s.errAddr k
  let s1 :=
    match stackOfKey k with
    | some j => ((s.bumpBy (aStk j 0x008) 16 1).setRaw (aStk j 0x00C) (BitVec.ofNat 32 a)).setRaw (aStk j 0x010)
        (BitVec.ofNat 32 (kind * 2 ^ 28 + a / 2 ^ 32 % 512))
    | none => ((s.bumpBy 0xCC004 16 1).setRaw 0xCC008 (BitVec.ofNat 32 a)).setRaw 0xCC00C
        (BitVec.ofNat 32 (kind * 2 ^ 28 + a / 2 ^ 32 % 512))
  let s2 := { s1 with step := { s1.step with memUe := true } }
  s2.post (halfOfKey k) 0x0C (memInst k) .error 3 (leBytes 6 a ++ leBytes 1 kind ++ leBytes 1 req)

/-- Apply correction or report to the errors in the units `us`; says whether one was uncorrectable. -/
def State.scanUnits (s : State) (us : List Nat) (kind req : Nat) : State × Bool :=
  (s.ecc.filter fun e => us.contains e.key).foldl
    (fun (p : State × Bool) e =>
      match e.kind with
      | .correctable => (p.1.corrected e.key, p.2)
      | .uncorrectable => (p.1.uncorrectable e.key kind req, true))
    (s, false)

/-- Read `n` bytes: corrects and reports; the flag says that an uncorrectable error was met (R182, R185). -/
def State.read (s : State) (a n kind req : Nat) : State × List Byte × Bool :=
  let p := s.scanUnits (s.unitsOf a n) kind req
  (p.1, p.1.bytes a n, p.2)

/-- Whether a write of `n` bytes from `a` covers unit `k` whole (R185). -/
def State.covers (s : State) (a n k : Nat) : Bool :=
  let size := if k < 2 ^ 44 then 8 else 64
  match addrOfKey s.regions k with
  | none => false
  | some x => decide (a ≤ x) && decide (x + size ≤ a + n)

/-- Write the metadata of a beat: a partial write of its unit; the flag is an error status (R173, R185). -/
def State.putMeta (s : State) (r : Region) (a word : Nat) (spoiled : Bool) (req : Nat) : State × Bool :=
  let q := s.scanUnits [unitKey (r.metaKey a)] 1 req
  (if q.2 then q.1 else q.1.setMeta r a word spoiled, q.2)

/-- The metadata of the beat at `a` after a write into units `us`: the units of the beat that the write leaves are read, and the
metadata unit is written in part (R173, R182, R185). The flag is an error status. -/
def State.beatAfter (s : State) (us : List Nat) (req a : Nat) : State × Bool :=
  match regionAt s.regions a with
  | none => (s, false)
  | some r =>
    if r.carrier then
      let p := s.scanUnits ((s.unitsOf (a / 256 * 256) 256).filter fun k => !us.contains k) 0 req
      let q := p.1.scanUnits [unitKey (r.metaKey a)] 1 req
      (if q.2 then q.1 else q.1.refreshBeat a, p.2 || q.2)
    else (s, false)

/-- Write bytes under R185: units covered whole are made good; a partial write into an uncorrectable unit leaves that
unit and is reported (the flag), while the other units are written. -/
def State.write (s : State) (a : Nat) (l : List Byte) (req : Nat) : State × Bool :=
  let n := l.length
  let us := s.unitsOf a n
  let hit := s.ecc.filter fun e => us.contains e.key
  if s.ecc = [] then (s.store a l, false)
  else
    let part := hit.filter fun e => !(s.covers a n e.key)
    let bad := part.filterMap fun e => if e.kind = .uncorrectable then some e.key else none
    let s1 := { s with ecc := s.ecc.filter fun e => !(hit.contains e && s.covers a n e.key) }
    let p := s1.scanUnits (part.map (·.key)) 1 req
    let s2 := (upto n).foldl
      (fun (q : State) i =>
        match keyOf s.regions (a + i) with
        | none => q
        | some k => if bad.contains (unitKey k) then q else { q with mem := mapSet 0 q.mem k (nth 0 l i) })
      p.1
    if a < dramBase then (s2, p.2)
    else (beatsOf a n).foldl (fun (q : State × Bool) x => let z := q.1.beatAfter us req x; (z.1, q.2 || z.2)) (s2, p.2)

/-- Write bytes all or none: where a part fails, the errors are reported and nothing is written (R185, a packet). -/
def State.writeAll (s : State) (a : Nat) (l : List Byte) (req : Nat) : State × Bool :=
  let w := s.write a l req
  if w.2 then
    ({ w.1 with mem := s.mem, ecc := s.ecc.filter fun e => w.1.ecc.contains e || decide (e.kind = .uncorrectable) }, true)
  else w

/-- The module's own engines read `n` bytes: errors are corrected or reported (R182, R185). -/
def State.noteRead (s : State) (a n : Nat) : State := (s.scanUnits (s.unitsOf a n) 0 0x7F).1

/-- The module's own engines write bytes (R185). -/
def State.put (s : State) (a : Nat) (l : List Byte) : State := (s.write a l 0x7F).1

/-! ## Program regions -/

/-- First byte and length of a core's program region (R386). -/
def State.prog (s : State) (c : Nat) : Nat × Nat :=
  (sliceBase c + (s.core c).progBase * 65536, (s.core c).progSize * 65536)

/-- Whether `n` bytes from `a` touch the program region of any core (R118). -/
def State.touchesProg (s : State) (a n : Nat) : Bool :=
  s.cores.any fun p => let r := s.prog p.1; overlap a n r.1 r.2

/-! ## Time -/

/-- One cycle of TIME: the count is held at 0 until the release of a module cold reset, and does not run in Off (R409). -/
def State.tick (s : State) : State :=
  { s with now := s.now + 1, timeCount := if s.boot.released || s.boot.warm then s.timeCount + 1 else s.timeCount }

end Sys2Proof.Machine
end

