-- ==== Sys2Proof/Machine/Gates.lean ====
section
/-! DEFINITION. The tree of software clock gates (R410) and what runs on a block's clock. -/

namespace Sys2Proof.Machine

/-- Nodes of the gate tree. -/
def gateNodes : Nat := 308

/-- Block and core of a leaf node. -/
def gateLeaf (n : Nat) : Option (Nat × Nat) := if 19 ≤ n ∧ n < 307 then some ((n - 19) / 3, (n - 19) % 3) else none

/-- The parent of a node; none for the root. -/
def gateParent (n : Nat) : Option Nat :=
  if n = 0 then none
  else if n < 3 ∨ n = 307 then some 0
  else if n < 19 then some (1 + (n - 3) / 8)
  else
    let c := (n - 19) / 3
    some (3 + 8 * (c / 48) + c % 48 / 6)

def State.gate (s : State) (n : Nat) : FuncSt := mapGet { st := .on } s.clk.gates n
def State.setGate (s : State) (n : Nat) (f : FuncSt) : State :=
  { s with clk := { s.clk with gates := mapSet { st := .on } s.clk.gates n f } }

/-- The clocks of node `n` run: it and every node above it are ON (R410). -/
def State.gateOn (s : State) : Nat → Nat → Bool
  | 0, n => decide ((s.gate n).st = .on)
  | d + 1, n => decide ((s.gate n).st = .on) && (match gateParent n with | none => true | some p => s.gateOn d p)

/-- The clock of block `b` of core `c` runs: 0 array, 1 vector engine, 2 move engine and threads (R410). -/
def State.blockOn (s : State) (c b : Nat) : Bool := s.gateOn 3 (19 + 3 * c + b)

end Sys2Proof.Machine
end

