-- ==== Sys2Proof/Machine/InstrWord.lean ====
section
/-! DEFINITION. The 64-bit instruction word (R109): its fields, the CLASS and OP codes that R110 does not refuse, and the
word of given fields. -/

namespace Sys2Proof.Machine

/-- Bits [hi:lo] of a word as a field of `n` bits. -/
def wordBits (w : DWord) (n lo : Nat) : BitVec n := (w >>> lo).setWidth n

/-- CLASS and OP of a word (R109). -/
def wordOp (w : DWord) : Nat × Nat := ((wordBits w 3 61).toNat, (wordBits w 7 54).toNat)

/-- The other fields of a word (R109). -/
def wordFields (w : DWord) : IFields :=
  { ra := wordBits w 5 49, rb := wordBits w 5 44, rc := wordBits w 5 39, rd := wordBits w 5 34
    wen := w.getLsbD 33, wctr := wordBits w 3 30, imm := wordBits w 30 0 }

/-- The word with a CLASS and OP and these fields (R109). -/
def IFields.word (f : IFields) (op : Nat × Nat) : DWord :=
  BitVec.ofNat 3 op.1 ++ BitVec.ofNat 7 op.2 ++ f.ra ++ f.rb ++ f.rc ++ f.rd ++ BitVec.ofBool f.wen ++ f.wctr ++ f.imm

/-- The vector opcodes (R144). -/
def vectorOps : List Nat :=
  [0x00, 0x01, 0x02, 0x03, 0x08, 0x09, 0x0A, 0x0B, 0x0C, 0x0D, 0x0E, 0x0F, 0x10, 0x11, 0x14, 0x15, 0x16, 0x17, 0x18]
    ++ [0x20, 0x21, 0x22, 0x24, 0x25, 0x28, 0x29, 0x30, 0x31, 0x32, 0x33, 0x38, 0x39, 0x3A, 0x40, 0x41]

/-- CLASS and OP are those of an instruction: scalar (R111), vector (R144), array (R113), move (R116), sync (R129). -/
def opDefined (op : Nat × Nat) : Bool :=
  let within_ := fun (a b : Nat) => decide (a ≤ op.2) && decide (op.2 ≤ b)
  if op.1 = 0 then
    within_ 0x00 0x12 || within_ 0x20 0x27 || within_ 0x30 0x34 || within_ 0x38 0x39 || within_ 0x3C 0x3C
  else if op.1 = 1 then vectorOps.contains op.2
  else if op.1 = 2 then within_ 1 5
  else if op.1 = 3 then within_ 0 0
  else if op.1 = 4 then within_ 0 8
  else false

end Sys2Proof.Machine
end

