-- ==== Sys2Proof/Machine/Operands.lean ====
section
/-! DEFINITION. The operand forms of thread instructions: field rules (R109, R110), registers (R104), immediates, the
issue of an instruction (R105, R106), thread exceptions (R136), completion of a tracked operation (R127). -/

namespace Sys2Proof.Machine

/-! ## Registers and fields -/

/-- A scalar register; s0 reads as 0 (R104). -/
def ThreadSt.sreg (x : ThreadSt) (r : BitVec 5) : DWord := if r = 0 then 0 else mapGet 0 x.s r.toNat

/-- Write a scalar register; a write to s0 is discarded (R104). -/
def ThreadSt.setS (x : ThreadSt) (r : BitVec 5) (v : DWord) : ThreadSt :=
  if r = 0 then x else { x with s := mapSet 0 x.s r.toNat v }

/-- A vector register (R104). -/
def ThreadSt.vreg (x : ThreadSt) (r : Nat) : VReg := mapGet 0 x.v r

/-- Write a vector register. -/
def ThreadSt.setV (x : ThreadSt) (r : Nat) (v : VReg) : ThreadSt := { x with v := mapSet 0 x.v r v }

/-- A wait counter. -/
def ThreadSt.wait (x : ThreadSt) (i : Nat) : WaitCnt := mapGet {} x.w i

/-- Write a wait counter. -/
def ThreadSt.setWait (x : ThreadSt) (i : Nat) (v : WaitCnt) : ThreadSt := { x with w := mapSet {} x.w i v }

/-- IMM sign-extended from 30 bits to 64 (R111). -/
def IFields.simm (f : IFields) : DWord := f.imm.signExtend 64

/-- Bits [hi:lo] of IMM. -/
def IFields.im (f : IFields) (hi lo : Nat) : Nat := field f.imm hi lo

/-- No tracking: WEN and WCTR are 0 outside the array and move classes (R110). -/
def IFields.plain (f : IFields) : Bool := f.wen == false && f.wctr == 0

/-- WCTR is 0 where WEN is 0, in the array and move classes (R110). -/
def IFields.trackOk (f : IFields) : Bool := f.wen || f.wctr == 0

/-- The tracking of an array or move instruction (R127). -/
def IFields.track (f : IFields) (t : Nat) : Track := ⟨t, f.wen, f.wctr.toNat⟩

/-- A vector register field of at most 15 (R110). -/
def vok (r : BitVec 5) : Bool := decide (r.toNat < 16)

/-! ## Exceptions (R136) -/

/-- Enter FAULTED: the step-fault bit is set and an ERROR event posted; nothing else changes (R136). -/
def State.exception (s : State) (c t : Nat) (e : Cause) (addr : DWord) : State :=
  let x := s.thread c t
  let s1 := s.setThread c t { x with st := .faulted, cause := some e, excAddr := addr }
  let s2 := s1.stepFault c 3 t e.code
  s2.post (halfOf c) 0x20 c .error 1 (leBytes 1 t ++ leBytes 1 e.code ++ leBytes 6 addr.toNat)
    (some (leBytes 4 (x.pc.toNat % 2 ^ 26)))

/-! ## Issue (R105, R106) -/

/-- Whether the module's clocks and power let a core issue: Run, and not Off (R418, R419). -/
def State.running (s : State) : Bool := decide (s.pstate = .run)

/-- Whether a PC lies in its core's program region (R106). -/
def State.pcOk (s : State) (c : Nat) (pc : DWord) : Bool :=
  let k := s.core c
  decide (k.progBase * 65536 ≤ pc.toNat) && decide (pc.toNat + 8 ≤ (k.progBase + k.progSize) * 65536)

/-- Whether core `c` may issue for thread `t`: the core is out of reset and not in its fault state, its threads are clocked, the
thread is in RUN and waits at no barrier, and its PC lies in the program region (R105, R106, R108, R139). -/
def State.canIssue (s : State) (c t : Nat) : Bool :=
  let k := s.core c
  let x := k.thread t
  s.running && s.blockOn c 2 && k.ready && !k.faultState && decide (x.st = .run) && decide (x.waitOn = .none) && s.pcOk c x.pc

/-- No named register awaits an AFLAG (R115). -/
def ThreadSt.free (x : ThreadSt) (rs : List (BitVec 5)) : Bool := rs.all fun r => mapGet 0 x.pend r.toNat == 0

/-- How an instruction ends: it waits, raises a cause at an address, or takes effect and goes on at a PC. -/
inductive Issue where
  | wait
  | raise (e : Cause) (addr : DWord)
  | done (s : State) (pc : DWord)

/-- The fetch of the word at the thread's PC: corrects or reports a memory error (R137, R182). -/
def State.fetch (s : State) (c t : Nat) : State :=
  let p := s.scanUnits (s.unitsOf (sliceBase c + (s.thread c t).pc.toNat) 8) 0 c
  if p.2 then (p.1.modThread c t fun x => { x with memErr := true }).stepFault c 4 t 0 else p.1

/-- The word at the thread's PC, little-endian in the slice (R106, R109). -/
def State.wordAt (s : State) (c t : Nat) : DWord := BitVec.ofNat 64 (leNat (s.bytes (sliceBase c + (s.thread c t).pc.toNat) 8))

/-- The word at the thread's PC is the instruction `op` with the fields `f` (R109). -/
def State.spells (s : State) (c t : Nat) (op : Nat × Nat) (f : IFields) : Bool :=
  decide (wordOp (s.wordAt c t) = op) && decide (wordFields (s.wordAt c t) = f)

/-- A thread that may issue decodes the word at its PC: the row of the instruction that the word spells has the effect
`body`, the row of another one has none (log 1), and a reserved CLASS or OP raises ILLEGAL (R109, R110). -/
def State.decoded (s : State) (c t : Nat) (op : Nat × Nat) (f : IFields) (body : Host.Outcome State Fault Refusal) :
    Host.Outcome State Fault Refusal :=
  if s.canIssue c t then
    if s.spells c t op f then body
    else if opDefined (wordOp (s.wordAt c t)) then .next s
    else .next ((s.fetch c t).exception c t .illegal 0)
  else .next s

/-- Issue one instruction: `regs` are its scalar registers, `legal` the checks of R110, `body` its effect. An instruction
that is not ready leaves the state as it is (log 2). -/
def State.issue (s : State) (c t : Nat) (regs : List (BitVec 5)) (legal : Bool) (body : State → ThreadSt → Issue) :
    Host.Outcome State Fault Refusal :=
  let x := s.thread c t
  if s.canIssue c t && x.free regs then
    let s1 := s.fetch c t
    if legal then
      match body s1 (s1.thread c t) with
      | .wait => .next s
      | .raise e a => .next (s1.exception c t e a)
      | .done s2 pc => .next (s2.modThread c t fun y => { y with pc := pc })
    else .next (s1.exception c t .illegal 0)
  else .next s

/-- Issue of an instruction of the vector engine: it waits while the engine's clock is gated (R410). -/
def State.vissue (s : State) (c t : Nat) (regs : List (BitVec 5)) (legal : Bool) (body : State → ThreadSt → Issue) :
    Host.Outcome State Fault Refusal :=
  if s.blockOn c 1 then s.issue c t regs legal body else .next s

/-- The next instruction in sequence (R106). -/
def ThreadSt.next (x : ThreadSt) : DWord := x.pc + 8

/-- A scalar result written to RA, and on to the next instruction (R111). -/
def State.retire (s : State) (c t : Nat) (x : ThreadSt) (ra : BitVec 5) (v : DWord) : Issue :=
  .done (s.setThread c t (x.setS ra v)) x.next

/-! ## Ends of tracked operations (R127) -/

/-- An ENDING thread whose counters are all 0 becomes IDLE; its ERR bits clear (R108). -/
def ThreadSt.endCheck (x : ThreadSt) : ThreadSt :=
  if x.st = .ending ∧ (x.w.all fun p => p.2.n == 0) then { x with st := .idle, w := [], waitOn := .none } else x

/-- CLASS and OP of an untracked operation in its event: CLASS in [7:5], OP in [4:0] (R440). -/
def classOp (cls op : Nat) : Nat := cls * 32 + op

/-- An array or move operation completes: its counter falls and takes the ERR bit; an error status sets the step-fault
bit, and without a counter posts an ERROR event (R127, R138). -/
def State.complete (s : State) (c : Nat) (tr : Track) (err : Bool) (cop : Nat) : State :=
  let s1 :=
    if tr.wen then
      s.modThread c tr.thr fun x =>
        let w := x.wait tr.wctr
        (x.setWait tr.wctr ⟨w.n - 1, w.err || err⟩).endCheck
    else s
  if err then
    let s2 := s1.stepFault c 5 tr.thr 0
    if tr.wen then s2 else s2.post (halfOf c) 0x20 c .error 4 (leBytes 1 tr.thr ++ leBytes 1 cop)
  else s1

/-- A tracked operation issues: its counter rises (R127). -/
def ThreadSt.trackUp (x : ThreadSt) (tr : Track) : ThreadSt :=
  if tr.wen then let w := x.wait tr.wctr; x.setWait tr.wctr { w with n := w.n + 1 } else x

/-- The counter of a tracked operation has room (R127). -/
def ThreadSt.trackRoom (x : ThreadSt) (tr : Track) : Bool := !tr.wen || decide ((x.wait tr.wctr).n < 255)

/-! ## Slice accesses (R111, R112) -/

/-- Whether `n` bytes from `a` lie in the slice of core `c`. -/
def inSlice (c a n : Nat) : Bool := inside a n (sliceBase c) sliceSize

/-- Whether `n` bytes from `a` touch the program region of core `c`. -/
def State.inProg (s : State) (c a n : Nat) : Bool := let r := s.prog c; overlap a n r.1 r.2

/-- The checks of a load: alignment, then the own slice (R111, R112, R136). -/
def loadFault (c a n al : Nat) : Option Cause :=
  if a % al ≠ 0 then some .align else if inSlice c a n then none else some .addr

/-- The checks of a store: as a load, then the program region (R111, R112, R136). -/
def State.storeFault (s : State) (c a n al : Nat) : Option Cause :=
  match loadFault c a n al with
  | some e => some e
  | none => if s.inProg c a n then some .prot else none

/-- A load of `n` bytes by thread `t`: an uncorrectable error delivers the data as read and sets MEM_ERR and the
step-fault bit (R137). -/
def State.loadBytes (s : State) (c t a n : Nat) : State × List Byte :=
  let p := s.read a n 0 c
  if p.2.2 then ((p.1.modThread c t fun x => { x with memErr := true }).stepFault c 4 t 0, p.2.1) else (p.1, p.2.1)

/-- A store by a thread: a partial write into an uncorrectable location leaves it and sets the step-fault bit (R185). -/
def State.storeBytes (s : State) (c t a : Nat) (l : List Byte) : State :=
  let p := s.write a l c
  if p.2 then p.1.stepFault c 5 t 0 else p.1

end Sys2Proof.Machine
end

