-- ==== Sys2Proof/Machine/Flags.lean ====
section
/-! DEFINITION. Statuses that operations leave behind: the carrier status of a core (R41, R42, R47, R147 to R149) and
the sticky flags of an array partition (R92, R103). -/

namespace Sys2Proof.Machine

/-! ## Carrier status -/

/-- The lower of two sources, by bucket and then by index (R147). -/
def lowSrc : Option (Nat × Nat) → Nat × Nat → Option (Nat × Nat)
  | none, q => some q
  | some p, q => if q.1 < p.1 ∨ (q.1 = p.1 ∧ q.2 < p.2) then some q else some p

/-- Record NONFINITE at a carrier conversion, with its source where one is given (R147). -/
def CStat.recCnf (x : CStat) (src : Option (Nat × Nat)) : CStat :=
  { x with cnf := true, cnfSrc := match src with | none => x.cnfSrc | some q => lowSrc x.cnfSrc q }

/-- Record SPOILED, with its source where one is given (R147). -/
def CStat.recSpoiled (x : CStat) (src : Option (Nat × Nat)) : CStat :=
  { x with spoiled := true, spSrc := match src with | none => x.spSrc | some q => lowSrc x.spSrc q }

/-- Record one conversion into SSI32 (R41, R42, R147). -/
def CStat.recSsi (x : CStat) (o : SsiOut) (src : Option (Nat × Nat)) : CStat :=
  let x1 := if o.nonfinite then x.recCnf src else x
  let x2 := if o.spoiled then x1.recSpoiled src else x1
  if o.flushed then { x2 with flush := satAdd 32 x2.flush 1 } else x2

/-- Change a core's carrier status. -/
def State.modCst (s : State) (c : Nat) (f : CStat → CStat) : State :=
  s.modCore c fun k => { k with vec := { k.vec with cst := f k.vec.cst } }

/-- A spoiled source marks its bucket in the local bitmaps of the STEP block (R221). -/
def State.markSpoiled (s : State) (b : Nat) : State :=
  let m := BitVec.ofNat 4096 (2 ^ b)
  { s with step := { s.step with spoilAny := s.step.spoilAny ||| m, spoilSrc := s.step.spoilSrc ||| m } }

/-- The word that VCSR returns (R149). -/
def CStat.word (x : CStat) : DWord :=
  BitVec.ofNat 64 (x.flush * 2 ^ 32 + b2n x.updNf * 8 + b2n x.spoiled * 4 + b2n x.cnf * 2 + b2n x.nf)

/-! ## Partition flags -/

/-- Bit places of ARR_PFLAG (R103). -/
def fWLOSS : Nat := 0
def fOVF : Nat := 1
def fNFIN_IN : Nat := 2
def fNFIN_OUT : Nat := 3
def fDSAT : Nat := 4
def fSPAR : Nat := 5
def fACC_UE : Nat := 6

/-- Set a sticky flag when `b` holds. -/
def PartSt.raiseIf (p : PartSt) (b : Bool) (i : Nat) : PartSt :=
  if b then { p with flags := p.flags ||| BitVec.ofNat 7 (2 ^ i) } else p

end Sys2Proof.Machine
end

