-- ==== Sys2Proof/Machine/Lanes.lean ====
section
/-! DEFINITION. Vector registers as lanes (R142) and the row reductions of chapter 03 (R66). -/

namespace Sys2Proof.Machine

/-- Lane `i` of width `w` bits. -/
def VReg.lane (v : VReg) (w i : Nat) : Nat := (v.toNat >>> (i * w)) % 2 ^ w

/-- A register of `n` lanes of `w` bits. -/
def mkV (w n : Nat) (g : Nat → Nat) : VReg :=
  BitVec.ofNat 2048 ((upto n).foldr (fun i acc => acc * 2 ^ w + g i % 2 ^ w) 0)

/-- `v` with `n` lanes of `w` bits from lane `o` replaced. -/
def VReg.patch (v : VReg) (w o n : Nat) (g : Nat → Nat) : VReg :=
  mkV w (2048 / w) fun i => if o ≤ i ∧ i < o + n then g (i - o) else VReg.lane v w i

/-- Element `i` of an M48 pair: bits [31:0] in the low register, [47:32] in the high (R142). -/
def m48At (lo hi : VReg) (i : Nat) : Nat := VReg.lane lo 32 i + VReg.lane hi 32 i % 65536 * 2 ^ 32

/-- The bytes of a register. -/
def VReg.toBytes (v : VReg) : List Byte := leBytes 256 v.toNat

/-- A register from bytes. -/
def vOfBytes (l : List Byte) : VReg := BitVec.ofNat 2048 (leNat l)

/-- The larger value of R66: NaN when either is NaN, +0 for +0 and -0. -/
def fvMax (a b : FV) : FV :=
  if a.isNan || b.isNan then .nan
  else if a.isZero && b.isZero then .num (a.sign && b.sign) 0 0
  else if FV.lt a b then b else a

/-- The smaller value of R145: NaN when either is NaN, -0 for +0 and -0. -/
def fvMin (a b : FV) : FV :=
  if a.isNan || b.isNan then .nan
  else if a.isZero && b.isZero then .num (a.sign || b.sign) 0 0
  else if FV.lt b a then b else a

/-- One level of the pairwise tree: present values combine, an absent one passes the other on (R66). -/
def treeLevel (op : Nat → Nat → Nat) : List (Option Nat) → List (Option Nat)
  | a :: b :: r =>
    (match a, b with
      | some x, some y => some (op x y)
      | some x, none => some x
      | none, y => y) :: treeLevel op r
  | l => l

/-- Six levels of the tree over 64 lanes (R66). -/
def tree64 (op : Nat → Nat → Nat) (l : List (Option Nat)) : Option Nat :=
  match treeLevel op (treeLevel op (treeLevel op (treeLevel op (treeLevel op (treeLevel op l))))) with
  | x :: _ => x
  | [] => none

/-- Combine register results in order; a register with no present lane is skipped (R66). -/
def rowFold (op : Nat → Nat → Nat) : Option Nat → List (List (Option Nat)) → Option Nat
  | r, [] => r
  | r, l :: rest =>
    match r, tree64 op l with
    | none, x => rowFold op x rest
    | some a, none => rowFold op (some a) rest
    | some a, some b => rowFold op (some (op a b)) rest

/-- Sum of two binary32 codes, rounded once (R66). -/
def b32Add (a b : Nat) : Nat := rb32 (FV.add (b32v a) (b32v b))

/-- Maximum of two binary32 codes (R66). -/
def b32Max (a b : Nat) : Nat := rb32 (fvMax (b32v a) (b32v b))

end Sys2Proof.Machine
end

