-- ==== Sys2Proof/Machine/ArrOps.lean ====
section
/-! DEFINITION. Operations of the matrix array: geometry (R71, R91), the reference passes (R50 to R58), tiles, claims,
power states (R98), the core's fault state (R95, R139). -/

namespace Sys2Proof.Machine

/-! ## Geometry -/

/-- Columns of a partition in a mode (R91). -/
def partW (mode : Nat) : Nat := if mode = 0 then 32 else if mode = 1 then 16 else 8

/-- Whether the mode has partition `p` (R91). -/
def partHas (mode p : Nat) : Bool := decide ((p + 1) * partW mode ≤ 32)

/-- Bits of an array input format (R45); 0 for any other. -/
def inBits (f : Nat) : Nat := if f = 1 ∨ f = 2 then 16 else if f = 7 then 4 else if 3 ≤ f ∧ f ≤ 6 then 8 else 0

/-- k of a pass (R71). -/
def passK (bits : Nat) : Nat := 4096 / bits

/-- Elements of a cell (R71). -/
def cellE (bits : Nat) : Nat := 128 / bits

/-- Columns of partition `p` that a column mask sets. -/
def maskCols (mode p mask : Nat) : List Nat := (seqFrom (p * partW mode) (partW mode)).filter fun n => mask.testBit n

/-- A column mask that stays within the partition (R73). -/
def maskOk (mode p mask : Nat) : Bool :=
  (upto 32).all fun n => !(mask.testBit n) || (decide (p * partW mode ≤ n) && decide (n < (p + 1) * partW mode))

def State.part (s : State) (c p : Nat) : PartSt := mapGet {} (s.core c).arr.parts p
def State.modArr (s : State) (c : Nat) (f : ArrSt → ArrSt) : State := s.modCore c fun k => { k with arr := f k.arr }
def State.modPart (s : State) (c p : Nat) (f : PartSt → PartSt) : State :=
  s.modArr c fun a => { a with parts := mapMod {} a.parts p f }

/-! ## Power states (R98, R99) -/

def pwrDrone (w : Word) : Bool := bit w 31

/-- Enter a power state: the configuration register takes effect (R103). -/
def State.pwrGo (s : State) (c : Nat) (st : ArrPwr) (level : Nat) : State :=
  let cfg := s.raw (aArr c 0x050)
  let t :=
    match st with
    | .softStart => s.now + field cfg 23 16 * 125
    | .rampDown => s.now + field cfg 15 8 * 125
    | .drone => s.now + field cfg 7 0 * 100
    | _ => 0
  let s1 := s.modArr c fun a => { a with pwr := st, level := level, timer := t, cfg := cfg }
  if st = .softStart then s1.bumpBy (aArr c 0x05C) 16 1 else s1

/-- Restart the level timer at a new level. -/
def State.pwrLevel (s : State) (c level : Nat) : State :=
  s.modArr c fun a =>
    let d := if a.pwr = .softStart then field a.cfg 23 16 else field a.cfg 15 8
    { a with level := level, timer := s.now + d * 125 }

/-- A row is ready to issue (R98, R99). A change of state applies the DRONE_EN last written, and ACTIVE and DRONE show
level 8 (DESIGN CHOICE, log 47). -/
def State.pwrRow (s : State) (c : Nat) : State :=
  let a := (s.core c).arr
  let soft := pwrDrone (s.raw (aArr c 0x050))
  match a.pwr with
  | .cold => if soft then s.pwrGo c .softStart 1 else s.pwrGo c .active 8
  | .drone => s.pwrGo c .active 8
  | .rampDown => if soft then s.pwrGo c .softStart a.level else s.pwrGo c .active 8
  | _ => s

/-- Every partition queue is empty and no row waits: ACTIVE becomes DRONE, or COLD with DRONE_EN = 0 (R98, R99, log 47). -/
def State.pwrIdle (s : State) (c : Nat) : State :=
  let a := (s.core c).arr
  let busy := a.parts.any fun p => decide (p.2.queue ≠ []) || p.2.passes.any fun q => decide (q.issued < q.op.mcount)
  if a.pwr = .active ∧ busy = false then
    if pwrDrone (s.raw (aArr c 0x050)) then s.pwrGo c .drone 8 else s.pwrGo c .cold 0
  else s

/-! ## Faults (R92, R95, R139) -/

/-- Report a partition fault and set the step-fault bit (R92): `kind` 0 SPAR, 1 ACC_UE. -/
def State.partFault (s : State) (c p bank m kind : Nat) : State :=
  (s.stepFault c 1 0 0).post (halfOf c) 0x21 c .error 1 (leBytes 1 p ++ leBytes 1 bank ++ leBytes 1 m ++ leBytes 1 kind)

/-- The array stops: queues are discarded and rows in flight lost; entries, tiles and flags stay (R95, R139). -/
def PartSt.discard (p : PartSt) : PartSt :=
  { p with queue := [], load := none, passes := [], rows := [], drains := [], seeds := [], sscale := [] }

/-- Answers still to come for the messages of a move, by tag (R140, R286, R291). -/
def RunMove.awaited (m : RunMove) (slot : Nat) : List (Nat × Nat) :=
  m.msgs.map fun g =>
    (slot * 4096 + g.run % 4096, (if g.run = m.run then m.off / g.pmax else g.count) - g.answered - g.retry.length)

/-- Add counts by tag. -/
def addTags (m : Map Nat) (l : List (Nat × Nat)) : Map Nat := l.foldl (fun g t => mapMod 0 g t.1 (· + t.2)) m

/-- Requests of 512 B that a move has sent and that are not answered (R125, R141): a local move and a beat of an atomic one are
answered in the step that makes them. -/
def RunMove.outstanding (m : RunMove) : Nat :=
  if m.op.d.target = 0 then 0
  else
    m.msgs.foldl
      (fun n g => n + min ((m.op.d.len0 + 511) / 512)
        (((if g.run = m.run then m.off / g.pmax else g.count) - g.answered - g.retry.length) * ((g.pmax + 511) / 512)))
      0

/-- OUTSTANDING of CORE_MOVE_STAT, at most 1024 (R141). -/
def CoreSt.outstanding (k : CoreSt) : Nat :=
  min 1024 (k.run.foldl (fun n p => match p.2 with | none => n | some m => n + m.outstanding) 0)

/-- The move engine stops: its queue is discarded, and a running move keeps only contributions it still owes (R139). -/
def CoreSt.stopMoves (k : CoreSt) : CoreSt :=
  let tags := fun (get : Bool) => k.run.flatMap fun p =>
    match p.2 with | none => [] | some m => if (m.op.d.target == 2) = get then m.awaited p.1 else []
  let run := k.run.filterMap fun p =>
    match p.2 with
    | none => none
    | some m => if m.owed = [] then none else some (p.1, some { m with stopped := true, msgs := [], done := true })
  { k with mq := [], run := run, gone := addTags k.gone (tags true), late := addTags k.late (tags false) }

/-- Enter the core's fault state with bits of CORE_FAULT (R139); a core that is in it records the new bits. A drain that
was reading completes with an error status (R89), and the empty queues end an ACTIVE array's work (R98). -/
def State.coreFault (s : State) (c : Nat) (bits : BitVec 4) : State :=
  let s0 := ((s.core c).arr.parts.flatMap fun p => p.2.drains).foldl
    (fun q d => q.complete c d.op.tr true (classOp 2 3)) s
  let s1 := s0.modCore c fun k =>
    let k1 := k.stopMoves
    { k1 with
      faultState := true
      faultBits := k.faultBits ||| bits
      vec := { k1.vec with loads := [] }
      arr := { k1.arr with parts := k1.arr.parts.map fun p => (p.1, p.2.discard) } }
  ((s1.stepFault c 2 0 0).post (halfOf c) 0x20 c .error 3 (leBytes 1 (s1.core c).faultBits.toNat)).pwrIdle c

/-! ## Claims and tile formats (R75, R78) -/

def PartSt.claim (p : PartSt) (b : Nat) : Option Claim := if b = 0 then p.claim0 else p.claim1
def PartSt.setClaim (p : PartSt) (b : Nat) (v : Option Claim) : PartSt :=
  if b = 0 then { p with claim0 := v } else { p with claim1 := v }

/-- Whether an ASTREAM is wide (R71, R75). -/
def ArrOp.wide (o : ArrOp) : Bool := inBits o.fmtA == 16

/-- What an operation makes of the claim of bank `b` (R75). -/
def ArrOp.claimAfter (o : ArrOp) (b : Nat) (cl : Option Claim) : Option Claim :=
  if o.bank ≠ b then cl
  else
    match o.kind with
    | .astream => if cl.isNone then some ⟨o.tr.thr, o.wide⟩ else cl
    | .aseed => if cl.isNone then some ⟨o.tr.thr, true⟩ else cl
    | .adrain => if o.clear then none else cl
    | _ => cl

/-- The claim of a bank once every operation already queued has taken effect (R75). -/
def PartSt.effClaim (p : PartSt) (b : Nat) : Option Claim :=
  let c0 := (p.drains.filter fun d => !d.read).foldl (fun cl d => d.op.claimAfter b cl) (p.claim b)
  p.queue.foldl (fun cl o => o.claimAfter b cl) c0

/-- The formats of the active and shadow tiles once every operation already queued has taken effect (R78). -/
def PartSt.effFmts (p : PartSt) : Option Nat × Option Nat :=
  let s0 := match p.load with | some o => some o.fmt | none => p.shd.fmt
  p.queue.foldl
    (fun q o =>
      match o.kind with
      | .aload => (q.1, some o.fmt)
      | .astream => if o.swap then (q.2, q.1) else q
      | _ => q)
    (p.act.fmt, s0)

/-! ## One row of a pass (R51 to R58) -/

/-- Element value of a code of an input format: the MX block scale where it has one (R36). -/
def inVal (fmt code sc : Nat) : FV := if isMx fmt then mxV ((fmtOf fmt).getD fB32) code sc else ((fmtOf fmt).getD fB32).decode code

/-- Per-tensor scale of an OFP8 operand; an MX operand has none (R51). -/
def tensorScale (fmt : Nat) (e : Int) : Int := if isMx fmt then 0 else e

/-- The narrow contribution of a column: the sum over blocks of the truncated block sums, with its flags (R51 to R54).
`prod k` is none where k is not fed, some none where an element is not finite, else the exact scaled product. -/
def narrowCol (kcount : Nat) (anchor : Int) (prod : Nat → Option (Option Dy)) : RowCol :=
  (upto (kcount / 32)).foldl
    (fun (acc : RowCol) b =>
      let r := (seqFrom (32 * b) 32).foldl
        (fun (q : Dy × Bool) k =>
          match prod k with
          | none => q
          | some none => (q.1, true)
          | some (some d) => (q.1.add d, q.2))
        (⟨0, 0⟩, false)
      let q := r.1.trunc anchor
      { acc with q := acc.q + q, nan := acc.nan || r.2, wloss := acc.wloss || !(Dy.eq ⟨q, anchor⟩ r.1) })
    {}

/-- One group of the wide path: its sum as a binary32 code, none where the group is skipped; whether an element was not
finite (R55, R56, R58). -/
def wideGroup (ps : List (Option (Option FV))) : Option Nat × Bool :=
  let bad := ps.any fun p => decide (p = some none)
  let used := ps.filterMap fun p => match p with | some (some v) => some v | _ => none
  if used = [] then (none, bad)
  else
    let nz := used.filter fun v => !v.isZero
    if nz = [] then (some (if used.all FV.sign then 0x80000000 else 0), bad)
    else
      let top := nz.foldl (fun (a : Int) v => match v with | .num _ m x => max a (flog2 m x) | _ => a)
        (match nz with | .num _ m x :: _ => flog2 m x | _ => 0)
      let u := top - 48
      let t := nz.foldl (fun (a : Int) v => a + v.dy.trunc u) 0
      (some (rb32 (Dy.fv ⟨t, u⟩)), bad)

/-- The group sums of a column in ascending k, with flags (R55 to R58). -/
def wideCol (kcount g : Nat) (prod : Nat → Option (Option FV)) : RowCol :=
  (upto (kcount / g)).foldl
    (fun (acc : RowCol) q =>
      let r := wideGroup ((seqFrom (g * q) g).map prod)
      match r.1 with
      | none => { acc with nan := acc.nan || r.2 }
      | some x => { acc with gs := acc.gs ++ [x], nan := acc.nan || r.2, ovf := acc.ovf || (b32v x).isInf })
    {}

/-- Element code of cell bits. -/
def cellAt (b : BitVec 128) (bits e : Nat) : Nat := (b.toNat >>> (e * bits)) % 2 ^ bits

/-- Key of a cell or scale in a tile. -/
def tileKey (r c : Nat) : Nat := r * 32 + c

/-- The contribution of one m-row to column `n`: `row r` gives the 16 bytes fed to row r, `ssc b` the stream scale byte
of block b (R48, R71, R79). -/
def rowCol (o : ArrOp) (t : Tile) (row : Nat → List Byte) (ssc : Nat → Nat) (n : Nat) : RowCol :=
  let bits := inBits o.fmtA
  let e := cellE bits
  let kc := passK bits
  let fmtB := o.fmtB
  let a := fun k => inVal o.fmtA ((leNat (row (k / e)) >>> (k % e * bits)) % 2 ^ bits) (ssc (k / 32))
  let b := fun k => inVal fmtB (cellAt (mapGet 0 t.cells (tileKey (k / e) n)) bits (k % e))
    (mapGet 0 t.scales (tileKey (k / 32) n)).toNat
  let fed := fun k => o.mask.testBit (k / e)
  let r :=
    if o.wide then
      wideCol kc o.g fun k =>
        if fed k then (if (a k).nonfinite || (b k).nonfinite then some none else some (some (FV.mul (a k) (b k)))) else none
    else
      let sh := tensorScale o.fmtA o.sA + tensorScale fmtB o.sB
      narrowCol kc o.anchor fun k =>
        if fed k then
          (if (a k).nonfinite || (b k).nonfinite then some none else some (some ((Dy.mul (a k).dy (b k).dy).scale sh)))
        else none
  { r with col := n }

/-! ## Accumulator entries -/

/-- Key of an entry (R84). -/
def accKey (bank m n : Nat) : Nat := bank * 8192 + m * 32 + n

def nMax : Int := 2 ^ 95 - 1
def nMin : Int := -2 ^ 95

/-- An entry after a row's contribution, and whether it overflowed (R52, R57, R58). It keeps the anchor of that row's
pass (log 46). -/
def Entry.addRow (x : Entry) (accInit wide : Bool) (anchor : Int) (r : RowCol) : Entry × Bool :=
  let tag := (accInit && x.tag) || r.nan
  if wide then
    let s0 := if accInit then x.v.toNat % 2 ^ 32 else 0
    let q := r.gs.foldl
      (fun (p : Nat × Bool) g =>
        let z := b32Add p.1 g
        (z, p.2 || ((b32v z).isInf && !(b32v p.1).isInf && !(b32v g).isInf)))
      (s0, r.ovf)
    (⟨BitVec.ofNat 96 q.1, tag, true, anchor⟩, q.2)
  else
    let n := (if accInit then x.v.toInt else 0) + r.q
    (⟨BitVec.ofInt 96 (clampI nMin nMax n), tag, true, anchor⟩, decide (nMax < n) || decide (n < nMin))

/-- The value of an entry at a drain, NaN where tagged (R44, R59). -/
def Entry.value (x : Entry) (wide : Bool) : FV :=
  if x.tag then .nan else if wide then b32v (x.v.toNat % 2 ^ 32) else Dy.fv ⟨x.v.toInt, x.anchor⟩

end Sys2Proof.Machine
end

