-- ==== Sys2Proof/Machine/Array.lean ====
section
/-! DEFINITION. The array operations and their internal steps (R73 to R100, R113 to R115). -/

namespace Sys2Proof.Machine

/-! ## Issue checks (R114) -/

/-- First cause of a footprint of segments (address, length): misaligned parts, a byte outside the own slice, a byte in
the program region (R114, R136). -/
def State.segFault (s : State) (c : Nat) (misaligned : Bool) (segs : List (Nat × Nat)) : Option Cause :=
  if misaligned then some .align
  else if segs.any fun g => !(inSlice c g.1 g.2) then some .addr
  else if segs.any fun g => s.inProg c g.1 g.2 then some .prot
  else none

/-- The offending address of such a cause: the misaligned one, or the start of the first segment at fault (R136). -/
def State.segAddr (s : State) (c : Nat) (e : Cause) (mis : Option Nat) (segs : List (Nat × Nat)) : Nat :=
  match e with
  | .align => mis.getD 0
  | .addr => ((segs.find? fun g => !(inSlice c g.1 g.2)).map (·.1)).getD 0
  | _ => ((segs.find? fun g => s.inProg c g.1 g.2).map (·.1)).getD 0

/-- The misaligned operand of an array instruction: an address, else 0 for a stride, which is no address (R114, R136). -/
def misOf (a st am : Nat) : Option Nat :=
  if a % 64 ≠ 0 then some a else if am % 4 ≠ 0 then some am else if st % 64 ≠ 0 then some 0 else none

/-- Issue an array instruction into a partition queue: ready when the queue and the counter have room; `chk` gives the
operation or none for a refusal as illegal, its misaligned operand and its footprint (R73, R74, R114). A partition that the
mode lacks is refused for every operation (log 48). -/
def State.arrIssue (s : State) (c : CoreId) (t : ThreadId) (f : IFields) (regs : List (BitVec 5)) (legal : Bool)
    (chk : State → ThreadSt → PartSt → Option (ArrOp × Option Nat × List (Nat × Nat))) : Host.Outcome State Fault Refusal :=
  let p := f.im 29 28
  s.issue c t regs (f.trackOk && legal && partHas (s.core c).arr.mode p) fun s1 x =>
    let q := s1.part c p
    let tr := f.track t
    if 8 ≤ q.queue.length || !(x.trackRoom tr) then .wait
    else
      match chk s1 x q with
      | none => .raise .illegal 0
      | some (o, mis, segs) =>
        match s1.segFault c mis.isSome segs with
        | some e => .raise e (BitVec.ofNat 64 (s1.segAddr c e mis segs))
        | none =>
          let o1 := { o with id := q.nextId, tr := tr }
          let b := o1.bank
          let q1 := { q with nextId := q.nextId + 1, queue := q.queue ++ [o1] }
          let q2 :=
            match o1.kind with
            | .astream => if (q.effClaim b).isNone && (q.claim b).isNone then q1.setClaim b (some ⟨t, o1.wide⟩) else q1
            | .aseed => if (q.effClaim b).isNone && (q.claim b).isNone then q1.setClaim b (some ⟨t, true⟩) else q1
            | _ => q1
          let y := x.trackUp tr
          let y1 := if o1.kind = .aflag then { y with pend := mapMod 0 y.pend o1.dest (· + 1) } else y
          .done ((s1.modPart c p fun _ => q2).setThread c t y1) x.next

/-- Rows of a mask. -/
def maskRows (m : Nat) : List Nat := (upto 32).filter fun r => m.testBit r

/-- ALOAD (R73, R76, R113, R114). -/
def execAload (c : CoreId) (t : ThreadId) (f : IFields) (s : State) : Host.Outcome State Fault Refusal :=
  s.decoded c t (2, 0x01) f <|
  let fmt := f.im 27 24
  let bits := inBits fmt
  s.arrIssue c t f [f.ra, f.rb, f.rc] (f.rd == 0 && f.im 23 0 == 0 && bits != 0) fun s1 x _ =>
    let a := (x.sreg f.ra).toNat
    let st := field (x.sreg f.rb) 23 0
    let rm := field (x.sreg f.rb) 63 32
    let sa := (x.sreg f.rc).toNat
    let w := partW (s1.core c).arr.mode
    let e := cellE bits
    let segs := (maskRows rm).flatMap fun r => (seqFrom (r * e) e).map fun k => (a + k * st, w * bits / 8)
    let scs := if isMx fmt then (upto (passK bits / 32)).map fun b => (sa + b * 32, w) else []
    some ({ kind := .aload, addr := a, stride := st, mask := rm, saddr := sa, fmt := fmt },
      misOf a st 0, segs ++ scs)

/-- An OFP8 format. -/
def isOfp8 (c : Nat) : Bool := c == 3 || c == 4

/-- The field checks of a narrow ASTREAM: scales and anchor (R49 to R51). -/
def narrowOk (fa fb : Nat) (sA sB anchor : Int) (dflt : Bool) : Bool :=
  decide (-126 ≤ sA) && decide (-126 ≤ sB) && (!(isMx fa) || sA == 0) && (!(isMx fb) || sB == 0)
    && (if dflt then isOfp8 fa && isOfp8 fb else decide (-320 ≤ anchor) && decide (anchor ≤ 256))

/-- L of the default anchor (R50). -/
def anchorL (fmt : Nat) : Int := if fmt = 3 then -9 else -16

/-- ASTREAM (R49 to R51, R73, R75, R78, R113, R114). -/
def execAstream (c : CoreId) (t : ThreadId) (f : IFields) (s : State) : Host.Outcome State Fault Refusal :=
  s.decoded c t (2, 0x02) f <|
  let fa := f.im 21 18
  let fb := f.im 17 14
  let mc := f.im 13 5
  let bits := inBits fa
  s.arrIssue c t f [f.ra, f.rb, f.rc, f.rd]
    (f.im 4 0 == 0 && bits != 0 && inBits fb == bits && f.im 23 22 != 3 && decide (1 ≤ mc) && decide (mc ≤ 256))
    fun s1 x q =>
      let a := (x.sreg f.ra).toNat
      let vb := x.sreg f.rb
      let vc := x.sreg f.rc
      let sa := (x.sreg f.rd).toNat
      let mode := (s1.core c).arr.mode
      let p := f.im 29 28
      let st := field vb 23 0
      let mb := field vb 31 24
      let km := field vb 63 32
      let cm := field vc 31 0
      let sA := sgn 8 (field vc 55 48)
      let sB := sgn 8 (field vc 63 56)
      let dflt := f.im 24 24 == 1
      let anc := sgn 16 (field vc 47 32)
      let wide := bits == 16
      let bank := f.im 27 27
      let swap := f.im 26 26 == 1
      let claimOk := match q.effClaim bank with | none => true | some cl => cl.thr == t.val && cl.wide == wide
      let fm := q.effFmts
      let tile := if swap then fm.2 else fm.1
      let tileOk := match tile with | none => true | some y => y == fb
      if !(maskOk mode p cm) || 256 < mb + mc || !claimOk || !tileOk || (!wide && !(narrowOk fa fb sA sB anc dflt)) then none
      else
        let anchor := if dflt then anchorL fa + anchorL fb + sA + sB else anc
        let kb := passK bits / 32
        let segs := (upto mc).flatMap fun j => (maskRows km).map fun r => (a + j * st + r * 16, 16)
        let scs := if isMx fa then [(sa, mc * kb)] else []
        some ({ kind := .astream, addr := a, stride := st, mask := km, saddr := sa, fmtA := fa, fmtB := fb, bank := bank,
                swap := swap, accInit := f.im 25 25 == 1, anchor := anchor, sA := sA, sB := sB,
                g := 16 / 2 ^ (f.im 23 22), mbase := mb, mcount := mc, colMask := cm },
          misOf a st 0, segs ++ scs)

/-- Formats of a drain output (R85). -/
def drainFmt (c : Nat) : Bool := c == 0 || c == 1 || c == 2 || c == 3 || c == 4 || c == 8

/-- ADRAIN (R73, R75, R85, R113, R114). -/
def execAdrain (c : CoreId) (t : ThreadId) (f : IFields) (s : State) : Host.Outcome State Fault Refusal :=
  s.decoded c t (2, 0x03) f <|
  let fo := f.im 25 22
  let sc := sgn 8 (f.im 21 14)
  let mc := f.im 13 5
  s.arrIssue c t f [f.ra, f.rb, f.rc]
    (f.rd == 0 && f.im 4 0 == 0 && drainFmt fo && (scaled8 fo || sc == 0) && decide (-126 ≤ sc) && decide (1 ≤ mc)
      && decide (mc ≤ 256))
    fun s1 x q =>
      let a := (x.sreg f.ra).toNat
      let vb := x.sreg f.rb
      let am := (x.sreg f.rc).toNat
      let mode := (s1.core c).arr.mode
      let p := f.im 29 28
      let st := field vb 23 0
      let mb := field vb 31 24
      let cm := field vb 63 32
      let bank := f.im 27 27
      let claimOk := match q.effClaim bank with | none => true | some cl => cl.thr == t.val
      if !(maskOk mode p cm) || 256 < mb + mc || !claimOk then none
      else
        let sz := elemBits fo / 8
        let segs := (upto mc).flatMap fun j => (maskCols mode p cm).map fun n => (a + j * st + (n - p * partW mode) * sz, sz)
        let ams := if am = 0 then [] else [(am, 4)]
        some ({ kind := .adrain, addr := a, stride := st, bank := bank, clear := f.im 26 26 == 1, outFmt := fo, outScale := sc,
                mbase := mb, mcount := mc, colMask := cm, amax := am },
          misOf a st am, segs ++ ams)
where
  /-- The output formats that OUT_SCALE scales (R85). -/
  scaled8 (c : Nat) : Bool := c == 3 || c == 4 || c == 8

/-- AFLAG (R73, R113, R115). -/
def execAflag (c : CoreId) (t : ThreadId) (f : IFields) (s : State) : Host.Outcome State Fault Refusal :=
  s.decoded c t (2, 0x04) f <|
  s.arrIssue c t f [f.ra] (f.rb == 0 && f.rc == 0 && f.rd == 0 && f.im 27 7 == 0) fun _ _ _ =>
    some ({ kind := .aflag, dest := f.ra.toNat, clearMask := f.im 6 0 }, none, [])

/-- ASEED (R73, R75, R90, R113, R114). -/
def execAseed (c : CoreId) (t : ThreadId) (f : IFields) (s : State) : Host.Outcome State Fault Refusal :=
  s.decoded c t (2, 0x05) f <|
  let mc := f.im 13 5
  s.arrIssue c t f [f.ra, f.rb]
    (f.rc == 0 && f.rd == 0 && f.im 4 0 == 0 && f.im 26 14 == 0 && decide (1 ≤ mc) && decide (mc ≤ 256))
    fun s1 x q =>
      let a := (x.sreg f.ra).toNat
      let vb := x.sreg f.rb
      let mode := (s1.core c).arr.mode
      let p := f.im 29 28
      let st := field vb 23 0
      let mb := field vb 31 24
      let cm := field vb 63 32
      let bank := f.im 27 27
      let claimOk := match q.effClaim bank with | none => true | some cl => cl.thr == t.val && cl.wide
      if !(maskOk mode p cm) || 256 < mb + mc || !claimOk then none
      else
        let segs := (upto mc).flatMap fun j => (maskCols mode p cm).map fun n => (a + j * st + (n - p * partW mode) * 4, 4)
        some ({ kind := .aseed, addr := a, stride := st, bank := bank, mbase := mb, mcount := mc, colMask := cm },
          misOf a st 0, segs)

/-! ## Internal steps -/

/-- The array of the core runs: clocked, out of reset and not in the fault state (R95, R102), with the
module in Run. -/
def State.arrRuns (s : State) (c : Nat) : Bool := s.running && s.blockOn c 0 && (s.core c).ready && !(s.core c).faultState

/-- ALOAD_START: the ALOAD at the head leaves the queue; every earlier swap was made as its pass left the queue (R78). -/
def execAloadStart (c : CoreId) (p : PartId) (s : State) : Host.Outcome State Fault Refusal :=
  let q := s.part c p
  match q.queue with
  | o :: r =>
    if s.arrRuns c ∧ o.kind = .aload ∧ q.load = none then
      .next ((s.modPart c p fun q => { q with queue := r, load := some o }).pwrIdle c)
    else .next s
  | [] => .next s

/-- Elements of one cell read from the slice: element `e` from byte rows of the operand (R35, R73). -/
def cellBits (rows : Nat → List Byte) (bits e r j : Nat) : BitVec 128 :=
  BitVec.ofNat 128 ((upto e).foldr
    (fun i acc => acc * 2 ^ bits + (leNat (slice (rows (r * e + i)) (j * bits / 8) ((bits + 7) / 8)) >>> (j * bits % 8)) % 2 ^ bits) 0)

/-- ALOAD_DONE: the rows of RMASK and the block scales are written to the shadow tile, which takes the format; the ALOAD
completes (R76, R78, R115). -/
def execAloadDone (c : CoreId) (p : PartId) (s : State) : Host.Outcome State Fault Refusal :=
  match (s.part c p).load with
  | none => .next s
  | some o =>
    let mode := (s.core c).arr.mode
    let w := partW mode
    let n0 := p.val * w
    let bits := inBits o.fmt
    let e := cellE bits
    let ks := (maskRows o.mask).flatMap fun r => seqFrom (r * e) e
    let u1 := ks.flatMap fun k => s.unitsOf (o.addr + k * o.stride) (w * bits / 8)
    let u2 := if isMx o.fmt then (upto (passK bits / 32)).flatMap fun b => s.unitsOf (o.saddr + b * 32) w else []
    let r := s.scanUnits (u1 ++ u2) 0 c
    let row := fun k => r.1.bytes (o.addr + k * o.stride) (w * bits / 8)
    let t0 := (s.part c p).shd
    let cells := (maskRows o.mask).foldl
      (fun m rr => (upto w).foldl (fun m j => mapSet 0 m (tileKey rr (n0 + j)) (cellBits row bits e rr j)) m) t0.cells
    let par := t0.par.filter fun z => !(o.mask.testBit (z.1 / 32) && decide (n0 ≤ z.1 % 32) && decide (z.1 % 32 < n0 + w))
    let scs := if isMx o.fmt then
        (upto (passK bits / 32)).foldl
          (fun m b => (upto w).foldl (fun m j => mapSet 0 m (tileKey b (n0 + j)) (r.1.byte (o.saddr + b * 32 + j))) m) t0.scales
      else t0.scales
    .next ((r.1.modPart c p fun q => { q with load := none, shd := ⟨some o.fmt, cells, par, scs⟩ }).complete c o.tr r.2 (classOp 2 1))

/-- STREAM_SCALE_READ: the scales of the first queued MX pass that lacks them go to a free half of the buffer (R80). -/
def execStreamScaleRead (c : CoreId) (p : PartId) (s : State) : Host.Outcome State Fault Refusal :=
  let q := s.part c p
  match q.queue.find? fun o => decide (o.kind = .astream) && isMx o.fmtA && !(q.sscale.any fun e => e.1 == o.id) with
  | none => .next s
  | some o =>
    if s.arrRuns c ∧ q.sscale.length < 2 then
      let r := s.read o.saddr (o.mcount * (passK (inBits o.fmtA) / 32)) 0 c
      .next (r.1.modPart c p fun q => { q with sscale := q.sscale ++ [(o.id, r.2.1, r.2.2)] })
    else .next s

/-- Whether the entries of bank `b` may be touched by a new pass: no drain of the bank still reads and no seed of it writes
(R88, R90). -/
def PartSt.bankFree (q : PartSt) (b : Nat) : Bool :=
  (q.drains.all fun d => d.op.bank != b || d.read) && q.seeds.all fun o => o.bank != b

/-- The pass that issues its next row: the one with rows left, else an ASTREAM at the head that may start (R72, R74,
R78, R80, R88, R90). The flag says that it leaves the queue now. -/
def PartSt.nextPass (q : PartSt) : Option (Pass × Bool) :=
  match q.passes.find? fun z => decide (z.issued < z.op.mcount) with
  | some z => some (z, false)
  | none =>
    match q.queue with
    | o :: _ =>
      let scaleOk := !(isMx o.fmtA) || q.sscale.any fun e => e.1 == o.id
      let swapOk := !o.swap || q.load.isNone
      if o.kind = .astream && scaleOk && swapOk && q.bankFree o.bank then some ({ op := o }, true) else none
    | [] => none

/-- Core cycles from the issue of a row to its write (R81). -/
def InRow.lat (r : InRow) : Nat := if r.wide then 44 else 14

/-- The rows in flight when at least `n` cycles have passed since the issue of row `i` of the list: no row was issued in
the cycle of another, so the older rows age with it (R72). -/
def ageTo (i n : Nat) (l : List InRow) : List InRow :=
  let d := n - (match l[i]? with | some r => r.age | none => n)
  (l.take (i + 1)).map (fun r => { r with age := r.age + d }) ++ l.drop (i + 1)

/-- No row in flight is older than its path is long: each is written in its cycle (R81). -/
def inTime (l : List InRow) : Bool := l.all fun r => decide (r.age < r.lat)

/-- Position of the last row in flight of a bank and m-row. -/
def PartSt.lastRow (q : PartSt) (b m : Nat) : Option Nat :=
  (upto q.rows.length).reverse.find? fun i => match q.rows[i]? with | some r => r.bank == b && r.mrow == m | none => false

/-- The rows in flight in the earliest cycle in which row `j` of a pass issues: a wide row that continues its entries issues
at least 40 cycles after the last row of its bank and m-row (R81, R82). -/
def PartSt.aged (q : PartSt) (o : ArrOp) (j : Nat) : List InRow :=
  let l := q.rows.map fun r => { r with age := r.age + 1 }
  match q.lastRow o.bank (o.mbase + j) with
  | some i => if o.wide && o.accInit then ageTo i 40 l else l
  | none => l

/-- A row waits while a row in flight must be written first (R81, R82). -/
def PartSt.heldRow (q : PartSt) (o : ArrOp) (j : Nat) : Bool := !inTime (q.aged o j)

/-- A parity upset of a stationary register: its bits flip, and a byte with an odd number of flips has bad parity (R92). -/
def Tile.upset (t : Tile) (e : Parity) : Tile :=
  let k := tileKey e.row e.col
  let odd := fun (b : Nat) => (upto 8).foldl (fun x i => x != e.flip.getLsbD (8 * b + i)) false
  { t with
    cells := mapMod 0 t.cells k (· ^^^ e.flip)
    par := mapMod 0 t.par k (· ^^^ BitVec.ofNat 16 ((upto 16).foldl (fun n b => n + b2n (odd b) * 2 ^ b) 0)) }

/-- A row of the mask reads a cell of bad parity in one of the columns (R92). -/
def Tile.badParity (t : Tile) (mask : Nat) (cols : List Nat) : Bool :=
  t.par.any fun e => mask.testBit (e.1 / 32) && cols.contains (e.1 % 32)

/-- ASTREAM_ROW_ISSUE: one m-row of a pass issues; a first row makes the exchange of SWAP. `u` is a parity upset of a
stationary register of the active tile that comes before it (R72, R77 to R82, R88, R92, R98). -/
def execAstreamRowIssue (c : CoreId) (p : PartId) (u : Option Parity) (s : State) : Host.Outcome State Fault Refusal :=
  let q := s.part c p
  match q.nextPass with
  | none => .next s
  | some (z, fresh) =>
    let o := z.op
    let j := z.issued
    if s.arrRuns c = false ∨ q.heldRow o j then .next s
    else
      let mode := (s.core c).arr.mode
      let cols := maskCols mode p o.colMask
      let kb := passK (inBits o.fmtA) / 32
      let s0 := s.pwrRow c
      let q1 := if fresh then
          { q with queue := q.queue.drop 1, act := if o.swap then q.shd else q.act, shd := if o.swap then q.act else q.shd }
        else q
      let tile := match u with | some e => q1.act.upset e | none => q1.act
      let hit := tile.badParity o.mask cols
      let us := (maskRows o.mask).flatMap fun r => s0.unitsOf (o.addr + j * o.stride + r * 16) 16
      let rd := s0.scanUnits us 0 c
      let row := fun r => rd.1.bytes (o.addr + j * o.stride + r * 16) 16
      let sc := (q1.sscale.find? fun e => e.1 == o.id)
      let ssc := fun b => match sc with | some e => (nth 0 e.2.1 (j * kb + b)).toNat | none => 0
      let scErr := match sc with | some e => e.2.2 | none => false
      let ir : InRow := { id := o.id, bank := o.bank, mrow := o.mbase + j, wide := o.wide, accInit := o.accInit, anchor := o.anchor,
                          cols := cols.map fun n => rowCol o tile row ssc n }
      let z1 := { z with issued := j + 1, out := z.out + 1, err := z.err || rd.2 || hit || scErr }
      let passes := if fresh then q1.passes ++ [z1] else q1.passes.map fun y => if y.op.id = o.id then z1 else y
      let sscale := if j + 1 = o.mcount then q1.sscale.filter fun e => e.1 != o.id else q1.sscale
      let s2 := rd.1.modPart c p fun _ =>
        ({ q1 with act := tile, passes := passes, rows := q.aged o j ++ [ir], sscale := sscale }).raiseIf hit fSPAR
      let s3 := if hit then s2.partFault c p o.bank (o.mbase + j) 0 else s2
      .next (s3.pwrIdle c)

/-- Flip bits of an entry read with an uncorrectable error; `ce` and `ue` are counted and flagged (R92). -/
def State.accMeet (s : State) (c p bank m : Nat) (e : AccErr) : State :=
  match e with
  | .ok => s
  | .ce => s.bumpBy (aArr c (0x01C + 0x10 * p)) 16 1
  | .ue _ => (s.modPart c p fun q => q.raiseIf true fACC_UE).partFault c p bank m 1

/-- The entry as read. -/
def AccErr.apply (e : AccErr) (x : Entry) : Entry :=
  match e with
  | .ue b => { x with v := x.v ^^^ b }
  | _ => x

def AccErr.bad : AccErr → Bool
  | .ue _ => true
  | _ => false

/-- What the read of the entry of column `n` meets. -/
def errAt (errs : List (ColId × AccErr)) (n : Nat) : AccErr :=
  match errs.find? fun e => e.1.val == n with
  | some e => e.2
  | none => .ok

/-- Position of the oldest row in flight of a bank, where it may be the next row that writes: an older row of the other
bank has a later cycle of writing (R81). -/
def PartSt.nextWrite (q : PartSt) (b : Nat) : Option (Nat × InRow) :=
  match (upto q.rows.length).find? fun i => match q.rows[i]? with | some r => r.bank == b | none => false with
  | none => none
  | some i =>
    match q.rows[i]? with
    | some r => if inTime ((ageTo i r.lat q.rows).take i) then some (i, r) else none
    | none => none

/-- ASTREAM_ROW_WRITE: the oldest row in flight of a bank writes its entries; its flags are set, its pass may complete.
`e` names the bank and what the reads of its entries met, where the pass continues them (R52, R53, R57, R81, R92, R115). -/
def execAstreamRowWrite (c : CoreId) (p : PartId) (e : BankErrs) (s : State) : Host.Outcome State Fault Refusal :=
  let q := s.part c p
  match q.nextWrite e.bank with
  | none => .next s
  | some (i, r) =>
    let met := fun (x : RowCol) => if r.accInit then errAt e.errs x.col else .ok
    let acc := (s.core c).arr.acc
    let res := r.cols.map fun x =>
      let k := accKey r.bank r.mrow x.col
      (k, ((met x).apply (mapGet {} acc k)).addRow r.accInit r.wide r.anchor x)
    let acc1 := res.foldl (fun m x => mapSet {} m x.1 x.2.1) acc
    let bad := r.cols.any fun x => (met x).bad
    let ends := fun (z : Pass) => z.op.id == r.id && z.out == 0 && z.issued == z.op.mcount
    let passes := q.passes.map fun z => if z.op.id = r.id then { z with out := z.out - 1, err := z.err || bad } else z
    let q1 := { q with rows := (ageTo i r.lat q.rows).eraseIdx i, passes := passes.filter fun z => !(ends z) }
    let q2 := (((q1.raiseIf (r.cols.any (·.wloss)) fWLOSS).raiseIf (res.any fun x => x.2.2) fOVF).raiseIf
      (r.cols.any (·.nan)) fNFIN_IN)
    let s1 := (s.modPart c p fun _ => q2).modArr c fun a => { a with acc := acc1 }
    let s2 := r.cols.foldl (fun x n => x.accMeet c p r.bank r.mrow (met n)) s1
    match passes.find? ends with
    | some z => .next ((s2.complete c z.op.tr z.err (classOp 2 2)).pwrIdle c)
    | none => .next s2

/-- No pass of the partition has rows left to issue. -/
def PartSt.allIssued (q : PartSt) : Bool := q.passes.all fun z => decide (z.op.mcount ≤ z.issued)

/-- Rows in flight into a bank (R81). -/
def PartSt.inflight (q : PartSt) (b : Nat) : Nat := (q.rows.filter fun r => r.bank == b).length

/-- Clear a bank of a partition and release its claim; a queued ASTREAM or ASEED takes it (R75, R84). -/
def State.clearBank (s : State) (c p b : Nat) : State :=
  let mode := (s.core c).arr.mode
  let w := partW mode
  let s1 := s.modArr c fun a =>
    { a with acc := a.acc.filter fun e => !(decide (e.1 / 8192 = b) && decide (p * w ≤ e.1 % 32) && decide (e.1 % 32 < (p + 1) * w)) }
  s1.modPart c p fun q =>
    let nx := q.queue.find? fun o => decide (o.bank = b) && (decide (o.kind = .astream) || decide (o.kind = .aseed))
    q.setClaim b (match nx with | some o => some ⟨o.tr.thr, decide (o.kind = .aseed) || o.wide⟩ | none => none)

/-- Outputs of a drain in order: (m-row offset, column). -/
def drainOuts (mode p : Nat) (o : ArrOp) : List (Nat × Nat) :=
  (upto o.mcount).flatMap fun j => (maskCols mode p o.colMask).map fun n => (j, n)

/-- ADRAIN_START: the ADRAIN at the head leaves the queue once every earlier pass has issued its last row (R88). -/
def execAdrainStart (c : CoreId) (p : PartId) (s : State) : Host.Outcome State Fault Refusal :=
  let q := s.part c p
  match q.queue with
  | o :: r =>
    if s.arrRuns c ∧ o.kind = .adrain ∧ q.allIssued then
      .next ((s.modPart c p fun q =>
        { q with queue := r, drains := q.drains ++ [{ op := o, todo := drainOuts (s.core c).arr.mode p o }] }).pwrIdle c)
    else .next s
  | [] => .next s

/-- The claim mode in which a bank's entries are read. -/
def PartSt.bankWide (q : PartSt) (b : Nat) : Bool := match q.claim b with | some cl => cl.wide | none => false

/-- One converted output: its bytes, DSAT, NFIN_OUT, and what an SSI32 output records (R86). -/
def drainConv (o : ArrOp) (v : FV) : List Byte × Bool × Bool × Option SsiOut :=
  if o.outFmt = 8 then
    let r := toSsi v o.outScale
    (leBytes 4 (code 32 r.val), r.spoiled || v.isInf, false, some r)
  else
    let ff := (fmtOf o.outFmt).getD fB32
    let r := ff.round (v.scale (-o.outScale))
    let nan := v.isNan || (v.isInf && decide (o.outFmt = 3))
    (leBytes (elemBits o.outFmt / 8) r.code, r.ovf || (v.isInf && !nan), nan, none)

/-- The drain of bank `b` that reads next: no row is in flight into the bank, and no seed of it is unfinished (R88, R90; an
earlier ASEED is written before the drain reads: DEDUCED, log 46). -/
def PartSt.reading (q : PartSt) (b : Nat) : Option Drain :=
  if q.inflight b = 0 ∧ (q.seeds.all fun o => o.bank != b) then q.drains.find? fun d => d.op.bank == b && !d.read else none

/-- Replace a drain in progress. -/
def PartSt.setDrain (q : PartSt) (d : Drain) : PartSt :=
  { q with drains := q.drains.map fun e => if e.op.id = d.op.id then d else e }

/-- A drain ends (R115). -/
def State.drainEnd (s : State) (c p : Nat) (d : Drain) (err : Bool) : State :=
  ((s.modPart c p fun q => { q with drains := q.drains.filter fun e => e.op.id != d.op.id }).complete c d.op.tr err (classOp 2 3)).pwrIdle c

/-- A drain that has no output left has read its entries: CLEAR clears the bank, and without AMAX_ADDR it ends (R88, R115). -/
def State.drainRead (s : State) (c p : Nat) (d : Drain) : State :=
  let d1 := { d with read := true }
  let s1 := s.modPart c p fun q => q.setDrain d1
  let s2 := if d.op.clear then s1.clearBank c p d.op.bank else s1
  if d.op.amax = 0 then s2.drainEnd c p d1 d1.err else s2

/-- DRAIN_OUTPUT_WRITE: the next entry is read, converted once and written; the maximum is measured. After the last output
the bank is clear where CLEAR asks for it, and an ADRAIN without AMAX_ADDR completes (R85 to R88, R92, R115). -/
def execDrainOutputWrite (c : CoreId) (p : PartId) (e : BankErr) (s : State) : Host.Outcome State Fault Refusal :=
  let q := s.part c p
  match q.reading e.bank with
  | none => .next s
  | some d =>
    let o := d.op
    match d.todo with
    | [] => .next (s.drainRead c p d)
    | (j, n) :: rest =>
      let x := e.err.apply (mapGet {} (s.core c).arr.acc (accKey o.bank (o.mbase + j) n))
      let v := x.value (q.bankWide o.bank)
      let r := drainConv o v
      let s1 := s.accMeet c p o.bank (o.mbase + j) e.err
      let wr := s1.write (o.addr + j * o.stride + (n - p.val * partW (s.core c).arr.mode) * (elemBits o.outFmt / 8)) r.1 c
      let s2 := match r.2.2.2 with
        | some so => wr.1.modCst c fun k => k.recSsi so none
        | none => wr.1
      let amax := if v.isNan then d.amax else fvMax d.amax v.abs
      let d1 := { d with todo := rest, amax := amax, err := d.err || e.err.bad || wr.2 }
      let s3 := s2.modPart c p fun q => ((q.setDrain d1).raiseIf r.2.1 fDSAT).raiseIf r.2.2.1 fNFIN_OUT
      .next (if rest = [] then s3.drainRead c p d1 else s3)

/-- AMAX_MERGE: the oldest drain of a bank that has read its entries merges its maximum into the word at AMAX_ADDR and
completes (R87). -/
def execAmaxMerge (c : CoreId) (pb : PartBank) (s : State) : Host.Outcome State Fault Refusal :=
  let p := pb.part
  match (s.part c p).drains.find? fun d => d.op.bank == pb.bank.val && d.read with
  | none => .next s
  | some d =>
    let r := s.read d.op.amax 4 0 c
    let old := leNat r.2.1 % 2 ^ 31
    let m := rb32 d.amax % 2 ^ 31
    let w := r.1.write d.op.amax (leBytes 4 (max old m)) c
    .next (w.1.drainEnd c p d (d.err || r.2.2 || w.2))

/-- AFLAG_DONE: after every earlier operation of the partition, the flags go to the register and are cleared (R74, R115). -/
def execAflagDone (c : CoreId) (p : PartId) (s : State) : Host.Outcome State Fault Refusal :=
  let q := s.part c p
  match q.queue with
  | o :: r =>
    if s.arrRuns c ∧ o.kind = .aflag ∧ q.load = none ∧ q.passes = [] ∧ q.rows = [] ∧ q.drains = [] ∧ q.seeds = [] then
      let s1 := s.modPart c p fun q => { q with queue := r, flags := q.flags &&& ~~~(BitVec.ofNat 7 o.clearMask) }
      let s2 := s1.modThread c o.tr.thr fun x =>
        ({ x with pend := mapMod 0 x.pend o.dest (· - 1) }).setS (BitVec.ofNat 5 o.dest) (q.flags.setWidth 64)
      .next ((s2.complete c o.tr false (classOp 2 4)).pwrIdle c)
    else .next s
  | [] => .next s

/-- ASEED_START: the ASEED at the head leaves the queue once every earlier pass has issued its last row and every earlier
drain of its bank has read its entries (R90). -/
def execAseedStart (c : CoreId) (p : PartId) (s : State) : Host.Outcome State Fault Refusal :=
  let q := s.part c p
  match q.queue with
  | o :: r =>
    if s.arrRuns c ∧ o.kind = .aseed ∧ (q.drains.all fun d => d.op.bank != o.bank || d.read) ∧ q.allIssued then
      .next ((s.modPart c p fun q => { q with queue := r, seeds := q.seeds ++ [o] }).pwrIdle c)
    else .next s
  | [] => .next s

/-- ASEED_DONE: with no row in flight into the bank the values of its oldest ASEED are written as entries, NaN as the tag
with the canonical NaN; an uncorrectable read completes with an error status (R90). -/
def execAseedDone (c : CoreId) (pb : PartBank) (s : State) : Host.Outcome State Fault Refusal :=
  let p := pb.part
  let q := s.part c p
  match q.seeds.find? fun o => o.bank == pb.bank.val with
  | none => .next s
  | some o =>
    if q.inflight o.bank = 0 then
      let mode := (s.core c).arr.mode
      let outs := drainOuts mode p o
      let at_ := fun (x : Nat × Nat) => o.addr + x.1 * o.stride + (x.2 - p.val * partW mode) * 4
      let r := s.scanUnits (outs.flatMap fun x => s.unitsOf (at_ x) 4) 0 c
      let acc := outs.foldl
        (fun m x =>
          let w := leNat (r.1.bytes (at_ x) 4)
          let nan := (b32v w).isNan
          mapSet {} m (accKey o.bank (o.mbase + x.1) x.2) (⟨BitVec.ofNat 96 (if nan then fB32.nanCode else w), nan, true, 0⟩ : Entry))
        (s.core c).arr.acc
      let s1 := (r.1.modArr c fun a => { a with acc := acc }).modPart c p fun q => { q with seeds := q.seeds.filter fun z => z.id != o.id }
      .next ((s1.complete c o.tr r.2 (classOp 2 5)).pwrIdle c)
    else .next s

/-! ## Power and faults of the array -/

/-- DRONE_BEAT: an issue slot without a row is filled; nothing but the counter changes (R94, R97, R98). -/
def execDroneBeat (c : CoreId) (p : PartId) (s : State) : Host.Outcome State Fault Refusal :=
  let a := (s.core c).arr
  if s.arrRuns c ∧ partHas a.mode p ∧ a.pwr ≠ .cold ∧ pwrDrone a.cfg then .next (s.bump (aArr c 0x058)) else .next s

/-- SOFT_START_LEVEL_TIMER: the level rises, or at level 8 the array becomes ACTIVE (R98). -/
def execSoftStartLevelTimer (c : CoreId) (s : State) : Host.Outcome State Fault Refusal :=
  let a := (s.core c).arr
  if a.pwr = .softStart ∧ a.timer ≤ s.now then
    if a.level < 8 then .next (s.pwrLevel c (a.level + 1)) else .next ((s.pwrGo c .active 8).pwrIdle c)
  else .next s

/-- DRONE_MAX_TIMER: ramp-down starts at level 8, or with DRONE_EN = 0 the array goes COLD at once (R98, R99). -/
def execDroneMaxTimer (c : CoreId) (s : State) : Host.Outcome State Fault Refusal :=
  let a := (s.core c).arr
  if a.pwr = .drone ∧ a.timer ≤ s.now then
    .next (if pwrDrone (s.raw (aArr c 0x050)) then s.pwrGo c .rampDown 8 else s.pwrGo c .cold 0)
  else .next s

/-- RAMP_DOWN_LEVEL_TIMER: the level falls, or at level 1 the array goes COLD (R98). -/
def execRampDownLevelTimer (c : CoreId) (s : State) : Host.Outcome State Fault Refusal :=
  let a := (s.core c).arr
  if a.pwr = .rampDown ∧ a.timer ≤ s.now then
    if 1 < a.level then .next (s.pwrLevel c (a.level - 1)) else .next (s.pwrGo c .cold 0)
  else .next s

/-- The ARR_FAULT bit of a cause (R103). -/
def ArrFault.bitNo : ArrFault → Nat
  | .drain => 0
  | .bist => 1
  | .clk => 2

/-- Stop the whole core for a fault of R95. -/
def State.arrFault (s : State) (c : Nat) (k : ArrFault) : State :=
  (s.modArr c fun a => { a with fault := a.fault ||| BitVec.ofNat 3 (2 ^ k.bitNo) }).coreFault c 1

/-- ARR_CORE_FAULT: also a core that is in its fault state takes the ARR_FAULT bit of a further fault (R95). -/
def execArrCoreFault (c : CoreId) (k : ArrFault) (s : State) : Host.Outcome State Fault Refusal :=
  if (s.core c).ready then .next (s.arrFault c k) else .next s

/-- CORE_FAULT_STATE: a parity or sequencing fault of the issue stage or the move engine (R139). -/
def execCoreFaultState (c : CoreId) (u : CoreUnit) (s : State) : Host.Outcome State Fault Refusal :=
  if (s.core c).ready then
    .next (s.coreFault c (match u with | .issue => 2 | .move => 4))
  else .next s

end Sys2Proof.Machine
end

