-- ==== Sys2Proof/Machine/Scale.lean ====
section
/-! DEFINITION. Scale descriptors (R190 to R195): their bytes, the scale of a descriptor, the commit of one descriptor. -/

namespace Sys2Proof.Machine

/-- First byte of descriptor `d` (R190). -/
def State.descAt (s : State) (d : Nat) : Nat := commonsBase + s.img.descOff + 192 * d

/-- ceil_log2 of R194 for a count. -/
def headroom (contrib : Nat) : Nat := ceilLog2 contrib + 2

/-- A finite binary32 magnitude as m * 2^e with an integer m, from its bits [30:0]. -/
def magParts (b : Nat) : Nat × Int :=
  let x : Nat := b / 2 ^ 23
  let f : Nat := b % 2 ^ 23
  if x = 0 then (f, -149) else (2 ^ 23 + f, Int.ofNat x - 150)

/-- Whether m * 2^e <= 7 * 2^k. -/
def leSeven (m : Nat) (e k : Int) : Bool := decide (m * 2 ^ (e + 1024).toNat ≤ 7 * 2 ^ (k + 1024).toNat)

/-- The smallest s from -126 to 127 with hmax * 2^margin * 2^-s <= fmax; 127 where there is none (R194). fmax is 7 * 2^k. -/
def descTensorScale (m : Nat) (e margin k : Int) : Int :=
  match (upto 254).find? fun (i : Nat) => leSeven m (e + margin - (Int.ofNat i - 126)) k with
  | some i => Int.ofNat i - 126
  | none => 127

/-- The fields DEPTH, HEAD and FILL under the normalisation of R192. -/
def descNorm (b : List Byte) : Nat × Nat × Nat :=
  let dep := min (max (leAt b 2 1) 1) 32
  (dep, leAt b 0x0D 1 % dep, min (leAt b 0x0E 1) dep)

/-- The largest history value, compared as bits [30:0]; infinities and NaNs are skipped (R192, R194). -/
def histMax (b : List Byte) (fill : Nat) : Nat :=
  (upto fill).foldl
    (fun m j => let v := leAt b (0x20 + 4 * j) 4 % 2 ^ 31; if v < 0x7F800000 then max m v else m)
    0

/-- scale_of (R194). `free` stands where the manual states no value: a tensor format other than E4M3 and E5M2, or a
carrier whose CONTRIB is 0 (log 4). -/
def scaleOf (b : List Byte) (fill : Nat) (free : Int) : Int :=
  let init := sgn 8 (leAt b 4 1)
  let h := histMax b fill
  if (leAt b 6 1).testBit 0 ∨ fill = 0 ∨ h = 0 then init
  else
    let q := magParts h
    let margin : Int := leAt b 3 1
    if leAt b 0 1 = 0 then
      if leAt b 1 1 = 3 then descTensorScale q.1 q.2 margin 6
      else if leAt b 1 1 = 4 then descTensorScale q.1 q.2 margin 13
      else free
    else if leAt b 8 4 = 0 then free
    else clampI (-126) 127 ((Nat.log2 q.1 : Int) + q.2 + 1 + headroom (leAt b 8 4) + margin - 31)

/-- Replace the bytes of `b` from offset `o` by `l`. -/
def putAt (b : List Byte) (o : Nat) (l : List Byte) : List Byte := b.take o ++ l ++ b.drop (o + l.length)

/-- A free scale (log 4). -/
def freeScale (n : Nat) : Int := clampI (-126) 127 (sgn 8 (Config.freeWord n).toNat)

/-- Recompute SCALE_CUR, and write back the normalised fields (R192). -/
def descRescale (b : List Byte) (free : Int) : List Byte :=
  let n := descNorm b
  let b1 := putAt (putAt b 2 (leBytes 1 n.1)) 0x0D (leBytes 1 n.2.1 ++ leBytes 1 n.2.2)
  putAt b1 0x0C (leBytes 1 (code 8 (scaleOf b1 n.2.2 free)))

/-- The commit of one descriptor at step `t`; the flag says that its pending value is infinite or NaN (R193). -/
def descCommit (b : List Byte) (t : Nat) (free : Int) : List Byte × Bool :=
  let n := descNorm b
  let bits := leAt b 0x10 4 % 2 ^ 31
  let valid := (leAt b 0x14 1).testBit 0
  let nan := valid && decide (0x7F800000 ≤ bits)
  let b1 := putAt (putAt b 2 (leBytes 1 n.1)) 0x0D (leBytes 1 n.2.1 ++ leBytes 1 n.2.2)
  let b2 :=
    if valid && !nan then
      let x := putAt b1 (0x20 + 4 * n.2.1) (leBytes 4 bits)
      let y := putAt x 0x0D (leBytes 1 ((n.2.1 + 1) % n.1) ++ leBytes 1 (min (n.2.2 + 1) n.1))
      putAt y 0x18 (leBytes 8 t)
    else b1
  (descRescale (putAt b2 0x14 [0, 0]) free, nan)

/-- Commit descriptor `d`; a non-finite pending amax posts a WARNING (R193, R440). -/
def State.commitDesc (s : State) (d : Nat) : State :=
  let a := s.descAt d
  let p := s.read a 192 0 0x7F
  let r := descCommit p.2.1 s.step.committed.toNat (freeScale s.freeCtr)
  let s1 := (p.1.put a r.1).bumpFree 1
  if r.2 then s1.post 0 0x0B 0 .warning 0x0B (leBytes 2 d ++ leBytes 4 (leAt p.2.1 0x10 4)) else s1

/-- The pass of the commit engine at the strum (R193). -/
def State.commitDescs (s : State) : State := (upto s.img.descCount).foldl State.commitDesc s

/-- The recomputation of every SCALE_CUR at a START (R192). -/
def State.rescaleAll (s : State) : State :=
  (upto s.img.descCount).foldl
    (fun q d =>
      let a := q.descAt d
      let p := q.read a 192 0 0x7F
      (p.1.put a (descRescale p.2.1 (freeScale q.freeCtr))).bumpFree 1)
    s

/-- Clear PSTAT of every descriptor (R219). -/
def State.clearPstat (s : State) : State :=
  (upto s.img.descCount).foldl (fun q d => q.put (q.descAt d + 0x14) [0]) s

/-- The effective scale of a bucket: SCALE_CUR + RAISE of its descriptor (R200). -/
def State.effScale (s : State) (b : Nat) : Int :=
  let a := s.descAt (mapGet {} s.buckets b).desc
  sgn 8 (s.byte (a + 0x0C)).toNat + ((s.byte (a + 0x15)).toNat : Int)

/-- The reserved scale codes (R40). -/
def scaleRes (e : Int) : Bool := decide (e = -128) || decide (e = -127)

/-- Whether the scale of a bucket lets an entry start: at most 127, neither it nor SCALE_CUR reserved (R40, R208). -/
def State.scaleOk (s : State) (b : Nat) : Bool :=
  let cur := sgn 8 (s.byte (s.descAt (mapGet {} s.buckets b).desc + 0x0C)).toNat
  decide (s.effScale b ≤ 127) && !scaleRes (s.effScale b) && !scaleRes cur

end Sys2Proof.Machine
end

