-- ==== Sys2Proof/Machine/MoveOps.lean ====
section
/-! DEFINITION. What moves and PUTs share: the closed areas of the commons (R489), the descriptor and its checks (R117
to R123), runs and their bytes (R118 to R121), write requests (R489). -/

namespace Sys2Proof.Machine

/-! ## Closed areas (R489) -/

/-- Whether offset `o` lies in the `n` bytes from `b`. -/
def within (o b n : Nat) : Bool := decide (b ≤ o) && decide (o < b + n)

/-- Whether offset `o` of the commons of half 0 is closed to moves and PUTs. -/
def State.closedOff (s : State) (o : Nat) : Bool :=
  let i := s.img
  (within o i.descOff (192 * i.descCount) && !(within ((o - i.descOff) % 192) 0x10 8))
    || (match i.recOff with
        | none => false
        | some r => within o r 4096 && !(within (o - r) 0x18 8) && !(within (o - r) 0x100 0x100))
    || (match i.updPlace with
        | none => false
        | some (a, b, c) => within o a 65536 || within o b 2129920 || within o c 262144)
    || (match i.sched with
        | none => false
        | some (t, c, _) => within o t 262144 || (within o c 4096 && !(within (o - c) 0 512)))
    || within o s.ev.ringOff (32 * 2 ^ s.ev.ringLog2) || within o s.ev.traceOff s.ev.traceLen

/-- Whether `n` bytes from `a` hold a byte of an image being loaded (R381). -/
def State.imgLocked (s : State) (a n : Nat) : Bool :=
  match s.ctl.loading with
  | none => false
  | some l => overlap a n l.addr l.len

/-- Whether a write request of `n` bytes at `a` would write a closed byte. -/
def State.closedReq (s : State) (a n : Nat) : Bool :=
  s.imgLocked a n || decide (commonsBase ≤ a + n) && decide (a < commonsBase + 0x40000000)
    && (seqFrom a n).any fun x => decide (commonsBase ≤ x) && s.closedOff (x - commonsBase)

/-- Whether a write touches bytes that the commit engine holds back: PENDING to RAISE of a descriptor (R195). -/
def State.heldByCommit (s : State) (a n : Nat) : Bool :=
  decide (s.step.phase = .committing)
    && overlap a n (commonsBase + s.img.descOff) (192 * s.img.descCount)

/-! ## Descriptor (R117) -/

/-- Read a descriptor from its 64 bytes; the flag says that no field holds a reserved value. -/
def decodeMove (b : List Byte) : MoveDesc × Bool :=
  let f := fun o n => leAt b o n
  let ctrl := f 0x3A 1
  let note := f 0x3C 2
  let d : MoveDesc :=
    { src := f 0 8, dst := f 8 8, sscl := f 0x10 8, dscl := f 0x18 8, len0 := f 0x20 4, cnt1 := f 0x24 2, cnt2 := f 0x26 2
      sstr1 := sgn 32 (f 0x28 4), sstr2 := sgn 32 (f 0x2C 4), dstr1 := sgn 32 (f 0x30 4), dstr2 := sgn 32 (f 0x34 4)
      kind := f 0x38 1, esize := f 0x39 1, target := ctrl % 4, vc := ctrl / 4 % 4, mx := ctrl.testBit 4
      mx4 := ctrl.testBit 5, contrib := ctrl.testBit 6, notify := BitVec.ofNat 16 note }
  (d, decide (d.kind ≤ 5) && decide (d.target ≠ 3) && decide (d.vc ≤ 1) && !(ctrl.testBit 7) && decide (f 0x3B 1 = 0)
    && decide (f 0x3E 2 = 0) && decide (note / 16 % 16 = 0) && decide (note / 256 % 128 < 96))

def kCopy : Nat := 0
def kTrans : Nat := 1
def kFill : Nat := 2
def kAdd : Nat := 3
def kMax : Nat := 4
def kOr : Nat := 5

def MoveDesc.atomic (d : MoveDesc) : Bool := decide (kAdd ≤ d.kind)

/-- Element size of a TRANSPOSE. -/
def MoveDesc.elem (d : MoveDesc) : Nat := 2 ^ d.esize

/-- Block length of the scales of a move with MX (R121). -/
def MoveDesc.block (d : MoveDesc) : Nat := if d.mx4 then 16 else 32

/-- Whether the destination, or the source, is remote (R123). -/
def MoveDesc.put (d : MoveDesc) : Bool := d.target == 1
def MoveDesc.get (d : MoveDesc) : Bool := d.target == 2 && d.kind != kFill

/-- A remote address: bits [63:62] and [43:41] are 0; a local one: bits [63:41] are 0 (R123). -/
def remoteOk (a : Nat) : Bool := decide (a / 2 ^ 62 = 0) && decide (a / 2 ^ 41 % 8 = 0)
def localOk (a : Nat) : Bool := decide (a < 2 ^ 41)

/-- The coordinate and the module address of a remote address (R123). -/
def remoteCoord (a : Nat) : Coord := ⟨a / 2 ^ 56 % 64, a / 2 ^ 50 % 64, a / 2 ^ 44 % 64⟩
def moduleAddr (a : Nat) : Nat := a % 2 ^ 41

/-- The combinations of R117 and R119 to R123, alignment apart. -/
def MoveDesc.legal (d : MoveDesc) : Bool :=
  let b := d.block
  decide (1 ≤ d.len0) && decide (d.len0 ≤ 16777216) && decide (1 ≤ d.cnt1) && decide (1 ≤ d.cnt2)
    && (if d.kind = kTrans then decide (d.esize ≤ 2) && decide (d.len0 % d.elem = 0) else d.esize == 0)
    && (if d.mx then
          d.kind == kCopy && decide (d.len0 % b = 0) && localOk d.sscl && localOk d.dscl
            && [d.sstr1, d.sstr2, d.dstr1, d.dstr2].all fun x => decide (0 ≤ x)
        else !d.mx4 && d.sscl == 0 && d.dscl == 0)
    && (!d.contrib || d.atomic)
    && (if d.atomic then d.target == 0 && decide (d.len0 % (if d.kind = kAdd then 256 else 4) = 0) else true)
    && (d.kind != kFill || decide (d.len0 % 4 = 0))
    && (!(d.notify.getLsbD 15) || d.target == 1)
    && (if d.put then remoteOk d.dst else localOk d.dst)
    && (if d.kind = kFill then true else if d.get then remoteOk d.src else localOk d.src)

/-- The alignment rules of R121 and R122. -/
def MoveDesc.aligned (d : MoveDesc) : Bool :=
  let strides := [d.sstr1, d.sstr2, d.dstr1, d.dstr2]
  let m := fun (n : Nat) => strides.all fun x => decide (x % (n : Int) = 0)
  if d.atomic then
    let n := if d.kind = kAdd then 256 else 4
    decide (d.src % n = 0) && decide (d.dst % n = 0) && m n
  else if d.mx then m d.block else true

/-! ## Runs (R118, R120) -/

/-- `base + k * stride` as an address; a negative one is beyond every region. -/
def addI (base : Nat) (x : Int) : Nat := let y := (base : Int) + x; if y < 0 then 2 ^ 64 else y.toNat

/-- Destination runs a plane and their length: a TRANSPOSE writes LEN0 / E rows of CNT1 elements (R120). -/
def MoveDesc.dstRuns (d : MoveDesc) : Nat × Nat :=
  if d.kind = kTrans then (d.len0 / d.elem, d.cnt1 * d.elem) else (d.cnt1, d.len0)

/-- Start of run `k` at the source and at the destination, runs counted plane by plane. -/
def MoveDesc.srcAt (d : MoveDesc) (k : Nat) : Nat :=
  addI (moduleAddr d.src) (((k / d.cnt1 : Nat) : Int) * d.sstr2 + ((k % d.cnt1 : Nat) : Int) * d.sstr1)
def MoveDesc.dstAt (d : MoveDesc) (k : Nat) : Nat :=
  let n := d.dstRuns.1
  addI (moduleAddr d.dst) (((k / n : Nat) : Int) * d.dstr2 + ((k % n : Nat) : Int) * d.dstr1)

/-- The lowest byte of a footprint and the number of bytes to its highest (R118). -/
def span (base len : Nat) (n1 : Nat) (s1 : Int) (n2 : Nat) (s2 : Int) : Nat × Nat :=
  let e1 := ((n1 - 1 : Nat) : Int) * s1
  let e2 := ((n2 - 1 : Nat) : Int) * s2
  let lo := min 0 e1 + min 0 e2
  let hi := max 0 e1 + max 0 e2
  (addI base lo, (hi - lo).toNat + len)

def MoveDesc.srcSpan (d : MoveDesc) : Nat × Nat := span (moduleAddr d.src) d.len0 d.cnt1 d.sstr1 d.cnt2 d.sstr2
def MoveDesc.dstSpan (d : MoveDesc) : Nat × Nat :=
  span (moduleAddr d.dst) d.dstRuns.2 d.dstRuns.1 d.dstr1 d.cnt2 d.dstr2

/-- The scale footprints of a move with MX (R121). -/
def MoveDesc.sclSpan (d : MoveDesc) (scl base : Nat) (sp : Nat × Nat) : Nat × Nat :=
  (scl + (sp.1 - base) / d.block, (sp.2 + d.block - 1) / d.block)

/-- A footprint lies in one region of the map and both its ends are decoded (R118, R165). -/
def State.oneRegion (s : State) (sp : Nat × Nat) : Bool :=
  match regionClass s.regions sp.1, regionClass s.regions (sp.1 + sp.2 - 1) with
  | some x, some y => x == y
  | _, _ => false

/-- Every run of `n` bytes at the given starts is decoded (R118). -/
def State.runsDecoded (s : State) (starts : List Nat) (n : Nat) : Bool :=
  starts.all fun a => (keyOf s.regions a).isSome && (keyOf s.regions (a + n - 1)).isSome

/-- Scale bytes of run `k` at the source and at the destination of a move with MX (R121). -/
def MoveDesc.ssclAt (d : MoveDesc) (k : Nat) : Nat := d.sscl + (d.srcAt k - moduleAddr d.src) / d.block
def MoveDesc.dsclAt (d : MoveDesc) (k : Nat) : Nat := d.dscl + (d.dstAt k - moduleAddr d.dst) / d.block

/-- A local footprint: its span, the starts of its runs and their length (R118). -/
structure Foot where
  span : Nat × Nat
  starts : List Nat
  len : Nat

/-- The local operands of a move: source and destination, and with MX their scale arrays (R118, R121). -/
def MoveDesc.srcFoot (d : MoveDesc) : Foot := ⟨d.srcSpan, (upto (d.cnt1 * d.cnt2)).map d.srcAt, d.len0⟩
def MoveDesc.dstFoot (d : MoveDesc) : Foot := ⟨d.dstSpan, (upto (d.dstRuns.1 * d.cnt2)).map d.dstAt, d.dstRuns.2⟩
def MoveDesc.ssclFoot (d : MoveDesc) : Foot :=
  ⟨d.sclSpan d.sscl (moduleAddr d.src) d.srcSpan, (upto (d.cnt1 * d.cnt2)).map d.ssclAt, d.len0 / d.block⟩
def MoveDesc.dsclFoot (d : MoveDesc) : Foot :=
  ⟨d.sclSpan d.dscl (moduleAddr d.dst) d.dstSpan, (upto (d.cnt1 * d.cnt2)).map d.dsclAt, d.len0 / d.block⟩
def MoveDesc.feet (d : MoveDesc) : List Foot :=
  (if d.kind == kFill || d.get then [] else [d.srcFoot]) ++ (if d.put then [] else [d.dstFoot])
    ++ (if d.mx then [d.ssclFoot, d.dsclFoot] else [])

/-- A footprint lies in one region, and every byte that its runs touch is decoded (R118, R165). -/
def State.footSound (s : State) (f : Foot) : Bool := s.oneRegion f.span && s.runsDecoded f.starts f.len

/-- The lowest byte of the first local footprint that is not sound (R118, R136). -/
def State.footBad (s : State) (d : MoveDesc) : Option Nat := (d.feet.find? fun f => !s.footSound f).map (·.span.1)

/-- Whether the footprint of the local operands is sound (R118). -/
def State.footOk (s : State) (d : MoveDesc) : Bool := (s.footBad d).isNone

/-- The lowest byte of the first local destination footprint that touches a program region (R118, R136). -/
def State.progBad (s : State) (d : MoveDesc) : Option Nat :=
  (((if d.put then [] else [d.dstSpan]) ++ if d.mx then [d.sclSpan d.dscl (moduleAddr d.dst) d.dstSpan] else []).find?
    fun p => s.touchesProg p.1 p.2).map (·.1)

/-- Whether a destination footprint touches a program region (R118). -/
def State.footProg (s : State) (d : MoveDesc) : Bool := (s.progBad d).isSome

/-- The address that is not aligned, the source before the destination; 0 where only a stride is not (R121, R122, R136). -/
def MoveDesc.misaligned (d : MoveDesc) : Nat :=
  let n := if d.kind = kAdd then 256 else 4
  if d.atomic && decide (d.src % n ≠ 0) then d.src else if d.atomic && decide (d.dst % n ≠ 0) then d.dst else 0

/-- A destination of ADD, MAX or OR that is decoded lies in DRAM (R122). -/
def MoveDesc.dramDst (d : MoveDesc) : Bool := !d.atomic || decide (0x000280000000 ≤ moduleAddr d.dst)

/-! ## Requests (R489) -/

/-- Read `n` bytes for core `c`: none where the access does not answer (R172); the flag says that the operation takes an
error status (R185). -/
def State.moveRead (s : State) (c a n : Nat) : State × Option (List Byte) × Bool :=
  if s.accRange (halfOf c) a n ≠ .ok then (s, none, true)
  else
    let p := s.read a n 0 c
    (p.1.cross (1 - halfOf c) (halfOf c) 2 (s.farBytes (halfOf c) a n), some p.2.1, p.2.2)

/-- One write request: refused whole when it would write a closed byte or the access does not answer. -/
def State.moveReq (s : State) (c a : Nat) (l : List Byte) : State × Bool :=
  if s.closedReq a l.length then (s, true)
  else if s.accRange (halfOf c) a l.length ≠ .ok then (s, true)
  else (s.cross (halfOf c) (1 - halfOf c) 2 (s.farBytes (halfOf c) a l.length)).write a l c

/-- Whether a move writes descriptors that the commit engine holds back, as its destination or as the scales of MX (R195). -/
def State.moveHeld (s : State) (d : MoveDesc) : Bool :=
  ((if d.put then [] else [d.dstSpan]) ++ if d.mx then [d.sclSpan d.dscl (moduleAddr d.dst) d.dstSpan] else []).any fun p =>
    s.heldByCommit p.1 p.2

/-- Number of requests of 512 B that cover `n` bytes. -/
def reqs (n : Nat) : Nat := (n + 511) / 512

/-- Write the bytes of a run in requests of 512 B from its first byte. -/
def State.moveWrite (s : State) (c a : Nat) (l : List Byte) : State × Bool :=
  (upto (reqs l.length)).foldl
    (fun (p : State × Bool) i =>
      let q := p.1.moveReq c (a + 512 * i) ((l.drop (512 * i)).take 512)
      (q.1, p.2 || q.2))
    (s, false)

/-- Copy `n` bytes request by request; a request whose read does not answer writes nothing. -/
def State.copyRun (s : State) (c src dst n : Nat) : State × Bool :=
  (upto (reqs n)).foldl
    (fun (p : State × Bool) i =>
      let m := min 512 (n - 512 * i)
      let r := p.1.moveRead c (src + 512 * i) m
      match r.2.1 with
      | none => (r.1, true)
      | some l => let q := r.1.moveReq c (dst + 512 * i) l; (q.1, p.2 || r.2.2 || q.2))
    (s, false)

/-- Run steps over the state, gathering their error flags. -/
def steps (f : State → Nat → State × Bool) (s : State) (l : List Nat) : State × Bool :=
  l.foldl (fun p i => let q := f p.1 i; (q.1, p.2 || q.2)) (s, false)

/-- The scales of a move with MX: those of every run (R121). -/
def State.copyScales (s : State) (c : Nat) (d : MoveDesc) : State × Bool :=
  if d.mx then
    steps
      (fun q k => q.copyRun c (d.ssclAt k) (d.dsclAt k) (d.len0 / d.block))
      s (upto (d.cnt1 * d.cnt2))
  else (s, false)

/-- `n` bytes of the pattern of a FILL (R119). -/
def fillBytes (src n : Nat) : List Byte := (upto n).map fun i => BitVec.ofNat 8 (src / 256 ^ (i % 4))

/-- One plane of a TRANSPOSE: every source run is read, then each destination row is written (R120). -/
def State.transPlane (s : State) (c : Nat) (d : MoveDesc) (p : Nat) : State × Bool :=
  let rd := (upto d.cnt1).foldl
    (fun (q : State × List (Option (List Byte)) × Bool) i =>
      let r := q.1.moveRead c (d.srcAt (p * d.cnt1 + i)) d.len0
      (r.1, q.2.1 ++ [r.2.1], q.2.2 || r.2.2))
    (s, [], false)
  let e := d.elem
  let n := d.dstRuns.1
  let w := steps
    (fun q j =>
      if rd.2.1.any Option.isNone then (q, true)
      else q.moveWrite c (d.dstAt (p * n + j)) (rd.2.1.flatMap fun r => slice (r.getD []) (j * e) e))
    rd.1 (upto n)
  (w.1, rd.2.2 || w.2)

/-- A local COPY, FILL or TRANSPOSE, whole (R119 to R121). -/
def State.localMove (s : State) (c : Nat) (d : MoveDesc) : State × Bool :=
  let p :=
    if d.kind = kCopy then steps (fun q k => q.copyRun c (d.srcAt k) (d.dstAt k) d.len0) s (upto (d.cnt1 * d.cnt2))
    else if d.kind = kFill then
      steps (fun q k => q.moveWrite c (d.dstAt k) (fillBytes d.src d.len0)) s (upto (d.cnt1 * d.cnt2))
    else steps (fun q i => q.transPlane c d i) s (upto d.cnt2)
  let r := p.1.copyScales c d
  (r.1, p.2 || r.2)

/-! ## Running moves -/

/-- Whether the move engine of core `c` runs (R139). -/
def State.moveRuns (s : State) (c : Nat) : Bool := s.running && s.blockOn c 2 && (s.core c).ready && !(s.core c).faultState

/-- The running move in a slot. -/
def CoreSt.slot (k : CoreSt) (i : Nat) : Option RunMove := mapGet none k.run i
def State.setSlot (s : State) (c i : Nat) (m : Option RunMove) : State :=
  s.modCore c fun k => { k with run := mapSet none k.run i m }

/-- A move completes: counter, step fault and event of R127; CORE_MOVE_ERR counts an error status (R141). -/
def State.moveEnd (s : State) (c : Nat) (tr : Track) (err : Bool) : State :=
  let s1 := s.complete c tr err (classOp 3 0)
  if err then s1.bumpBy (aCore c 0x024) 16 1 else s1

/-- Add to a receive counter; one that would pass its limit stays there and sets the step-fault bit (R128). -/
def State.addRc (s : State) (c n d : Nat) : State :=
  let v := mapGet 0 (s.core c).rc n
  let s1 := s.modCore c fun k => { k with rc := mapSet 0 k.rc n (satAdd 32 v d) }
  if 0xFFFFFFFF < v + d then s1.stepFault c 7 0 0 else s1

end Sys2Proof.Machine
end

