-- ==== Sys2Proof/Machine/Sync.lean ====
section
/-! DEFINITION. The sync unit (R127 to R132), the start and end of threads (R108), the reading of the schedule table (R319) and the end of
a core's self-test (R95, R139, R140). -/

namespace Sys2Proof.Machine

/-! ## Waiting -/

/-- No other field is used. -/
def IFields.noRegs (f : IFields) : Bool := f.ra == 0 && f.rb == 0 && f.rc == 0 && f.rd == 0

/-- WAIT: proceeds when the counter is at or below the threshold; returns and clears its ERR bit (R129, R130). -/
def execWait (c : CoreId) (t : ThreadId) (f : IFields) (s : State) : Host.Outcome State Fault Refusal :=
  s.decoded c t (4, 0x00) f <|
  s.issue c t [f.ra] (!f.wen && f.rb == 0 && f.rc == 0 && f.rd == 0 && f.im 29 8 == 0) fun s1 x =>
    let w := x.wait f.wctr.toNat
    if f.im 7 0 < w.n then .wait
    else s1.retire c t (x.setWait f.wctr.toNat { w with err := false }) f.ra (BitVec.ofNat 64 (b2n w.err))

/-- A lower thread that may issue waits on receive counter `n` for an amount that it holds: it is served first (R130). -/
def State.rcBehind (s : State) (c t n : Nat) : Bool :=
  (upto t).any fun u =>
    match (s.thread c u).rcWait with
    | some (m, a) => m == n && decide (a ≤ mapGet 0 (s.core c).rc n) && s.canIssue c u
    | none => false

/-- WAITRC: proceeds when the receive counter holds the amount and no lower thread waits that it satisfies, and subtracts
the amount; else the thread waits (R129, R130). -/
def execWaitrc (c : CoreId) (t : ThreadId) (f : IFields) (s : State) : Host.Outcome State Fault Refusal :=
  s.decoded c t (4, 0x01) f <|
  s.issue c t [f.rb] (f.plain && f.ra == 0 && f.rc == 0 && f.rd == 0 && f.im 29 4 == 0) fun s1 x =>
    let n := f.im 3 0
    let amt := field (x.sreg f.rb) 31 0
    let v := mapGet 0 (s1.core c).rc n
    if v < amt ∨ s1.rcBehind c t n then .done (s.modThread c t fun y => { y with rcWait := some (n, amt) }) x.pc
    else .done ((s1.setThread c t { x with rcWait := none }).modCore c fun k => { k with rc := mapSet 0 k.rc n (v - amt) }) x.next

/-- A thread's VLUTLDs have completed (R154). -/
def CoreSt.lutDone (k : CoreSt) (t : Nat) : Bool := !(k.vec.loads.any fun l => l.thr == t)

/-- Release the threads that wait as `w`: each goes on at its next instruction (R131). -/
def CoreSt.release (k : CoreSt) (w : WaitOn) (ts : List Nat) : CoreSt :=
  ts.foldl
    (fun q t =>
      let x := q.thread t
      if x.waitOn = w then q.setThread t { x with waitOn := .none, pc := x.next } else q)
    k

/-- BAR: arrives; the arrival that reaches the count releases every waiting thread (R131). -/
def execBar (c : CoreId) (t : ThreadId) (f : IFields) (s : State) : Host.Outcome State Fault Refusal :=
  s.decoded c t (4, 0x02) f <|
  let b := f.im 2 0
  let n := f.im 15 8
  s.issue c t [] (f.plain && f.noRegs && f.im 7 3 == 0 && f.im 29 16 == 0 && decide (1 ≤ n) && decide (n ≤ 32)) fun s1 x =>
    let k := s1.core c
    let q := mapGet {} k.bars b
    if !(k.lutDone t) then .wait
    else if q.arr ≠ [] ∧ q.need ≠ n then .raise .illegal 0
    else if q.arr.length + 1 = n then
      .done (s1.setCore c ({ k with bars := mapSet {} k.bars b {} }.release (.bar b) q.arr)) x.next
    else
      .done (s1.setCore c ({ k with bars := mapSet {} k.bars b ⟨n, q.arr ++ [t.val]⟩ }.setThread t { x with waitOn := .bar b })) x.pc

/-- The cores of group `g`; none where the group is undefined (R385). -/
def State.group (s : State) (g : Nat) : Option (List Nat) :=
  let m := nth 0 s.img.groups g
  if m = 0 then none else some ((upto 96).filter fun c => m.getLsbD c)

/-- GBAR: arrives and waits; the core has arrived when as many threads as named have (R132). A further thread of a core
that has arrived waits for the release of the use. -/
def execGbar (c : CoreId) (t : ThreadId) (f : IFields) (s : State) : Host.Outcome State Fault Refusal :=
  s.decoded c t (4, 0x03) f <|
  let g := f.im 3 0
  let n := f.im 15 8
  s.issue c t []
    (f.plain && f.noRegs && f.im 7 4 == 0 && f.im 29 16 == 0 && decide (1 ≤ n) && decide (n ≤ 32) && (s.group g).isSome)
    fun s1 x =>
      let k := s1.core c
      let q := mapGet {} k.gbars g
      if !(k.lutDone t) || (decide (q.arr ≠ []) && decide (q.arr.length = q.need)) then .wait
      else if q.arr ≠ [] ∧ q.need ≠ n then .raise .illegal 0
      else
        .done (s1.setCore c ({ k with gbars := mapSet {} k.gbars g ⟨n, q.arr ++ [t.val]⟩ }.setThread t
          { x with waitOn := .gbar g })) x.pc

/-- Whether a core has arrived at group barrier `g`; one in its fault state never has (R132). -/
def CoreSt.arrived (k : CoreSt) (g : Nat) : Bool :=
  let q := mapGet {} k.gbars g
  !k.faultState && decide (q.arr ≠ []) && decide (q.arr.length = q.need)

/-- GBAR_RELEASE: every core of the group has arrived; its waiting threads are released. Arrivals of a group on both
halves cross the bridge (R132). -/
def execGbarRelease (g : SlotId) (s : State) : Host.Outcome State Fault Refusal :=
  match s.group g with
  | none => .next s
  | some cs =>
    let both := cs.any (fun c => decide (c < 48)) && cs.any (fun c => decide (48 ≤ c))
    if (cs.all fun c => (s.core c).arrived g) && (!both || s.bridge.dataUp) then
      .next (cs.foldl
        (fun q c => q.modCore c fun k =>
          { k with gbars := mapDel k.gbars g.val }.release (.gbar g.val) (mapGet ({} : Bar) k.gbars g.val).arr)
        s)
    else .next s

/-! ## Threads -/

/-- A thread as START or TSTART leaves it: registers 0, s1 the argument, RUN at the entry (R108). -/
def ThreadSt.started (x : ThreadSt) (entry arg : DWord) : ThreadSt :=
  { st := .run, pc := entry, s := mapSet 0 [] 1 arg, memErr := x.memErr }

/-- TSTART: starts an IDLE thread; causes in the order ILLEGAL, ALIGN, PROT (R129, R136). -/
def execTstart (c : CoreId) (t : ThreadId) (f : IFields) (s : State) : Host.Outcome State Fault Refusal :=
  s.decoded c t (4, 0x04) f <|
  s.issue c t [f.ra, f.rb] (f.plain && f.rc == 0 && f.rd == 0 && f.im 29 5 == 0) fun s1 x =>
    let u := f.im 4 0
    let y := s1.thread c u
    let e := x.sreg f.ra
    if y.st ≠ .idle then .raise .illegal 0
    else if e.toNat % 8 ≠ 0 then .raise .align e
    else if !(s1.pcOk c e) then .raise .prot e
    else .done (s1.setThread c u (y.started e (x.sreg f.rb))) x.next

/-- TEND: no further issue; the thread is IDLE once its counters are 0 (R108, R129). -/
def execTend (c : CoreId) (t : ThreadId) (f : IFields) (s : State) : Host.Outcome State Fault Refusal :=
  s.decoded c t (4, 0x05) f <|
  s.issue c t [] (f.plain && f.noRegs && f.imm == 0) fun s1 x =>
    .done (s1.setThread c t ({ x with st := .ending }.endCheck)) x.next

/-- STEPFLT: sets the step-fault bit and posts an ERROR event with the program's code (R129, R440). -/
def execStepflt (c : CoreId) (t : ThreadId) (f : IFields) (s : State) : Host.Outcome State Fault Refusal :=
  s.decoded c t (4, 0x06) f <|
  s.issue c t [] (f.plain && f.noRegs && f.im 29 16 == 0) fun s1 x =>
    let e := f.im 15 0
    .done ((s1.stepFault c 6 t e).post (halfOf c) 0x20 c .error 2 (leBytes 1 t ++ leBytes 2 e)) x.next

/-- EVNT: posts a program event with the payload of RA (R129, R440). -/
def execEvnt (c : CoreId) (t : ThreadId) (f : IFields) (s : State) : Host.Outcome State Fault Refusal :=
  s.decoded c t (4, 0x07) f <|
  s.issue c t [f.ra] (f.plain && f.rb == 0 && f.rc == 0 && f.rd == 0 && f.im 29 17 == 0) fun s1 x =>
    let cls : EvClass := if f.im 16 16 = 0 then .notice else .trace
    .done (s1.post (halfOf c) 0x30 c cls (f.im 15 0) (leBytes 8 (x.sreg f.ra).toNat)) x.next

/-! ## The schedule table (R319, R323) -/

/-- First byte of entry `e` of the schedule table. -/
def State.schedAt (s : State) (e : Nat) : Nat :=
  match s.img.sched with
  | none => 0
  | some (o, _, _) => commonsBase + o + 64 * e

/-- KIND of entry `e`; END without a schedule (R319). -/
def State.schedKind (s : State) (e : Nat) : Nat :=
  if s.img.sched.isNone ∨ 4095 ≤ e then 0 else (s.byte (s.schedAt e)).toNat

/-- Entries before END, from entry `e`, at most `n`. -/
def State.schedLen (s : State) : Nat → Nat → Nat
  | _, 0 => 0
  | e, n + 1 => if s.schedKind e = 0 then 0 else 1 + s.schedLen (e + 1) n

/-- Number of entries before END (R340). -/
def State.entries (s : State) : Nat := s.schedLen 0 4095

/-- Count an ignored release (R323). -/
def State.csigIgnored (s : State) : State := { s with col := { s.col with csigXs := satAdd 32 s.col.csigXs 1 } }

/-- FLAGS and BUCKET of an entry (R319). -/
def State.schedFlag (s : State) (e i : Nat) : Bool := (s.byte (s.schedAt e + 1)).toNat.testBit i
def State.schedBucket (s : State) (e : Nat) : Nat := leNat (s.bytes (s.schedAt e + 4) 2)

/-- An entry with WINDOW that passes in a re-tune attempt (R325). -/
def State.windowPass (s : State) (e : Nat) : Bool :=
  s.col.retune && s.schedFlag e 2 && !(s.schedKind e == 1 && s.col.sel.getLsbD (s.schedBucket e))

/-- A sequencer or the STEP block reads entry `e`: an error in it is corrected or reported (R182, R185). -/
def State.readEnt (s : State) (e : Nat) : State := if s.img.sched.isSome then s.noteRead (s.schedAt e) 64 else s

/-! ## Self-test -/

/-- CORE_SELFTEST_DONE: the core is ready, or enters its fault state; the receive counters are 0 (R95, R139, R140). -/
def execCoreSelftestDone (c : CoreId) (coreOk arrOk : Bool) (s : State) : Host.Outcome State Fault Refusal :=
  if (s.core c).ready ∨ s.boot.coreFw = false ∨ (s.half (halfOf c)).inReset then .next s
  else
    let s1 := s.modCore c fun k => { k with ready := true, rc := [] }
    let s2 :=
      if arrOk then s1 else s1.modCore c fun k => { k with arr := { k.arr with fault := k.arr.fault ||| 2 } }
    if coreOk && arrOk then .next s2
    else .next (s2.coreFault c (BitVec.ofNat 4 (b2n (!coreOk) * 8 + b2n (!arrOk))))

end Sys2Proof.Machine
end

