-- ==== Sys2Proof/Machine/ColOps.lean ====
section
/-! DEFINITION. What the sequencers share (R318 to R337): schedule entries, their order, runs and their ends, packets of
collectives, accounting. -/

namespace Sys2Proof.Machine

/-! ## Entries -/

/-- A schedule entry (R319). -/
structure SchedEnt where
  kind : Nat
  flags : Nat
  axis : Nat
  minus : Bool
  axes : Nat
  op : Nat
  bucket : Nat
  bankset : Nat
  ngroup : Nat
  note : Nat
  chunk : Nat
  pkts : Nat
  addr : Nat
  len : Nat

/-- Entry `e` of the schedule table. -/
def State.ent (s : State) (e : Nat) : SchedEnt :=
  let b := s.bytes (s.schedAt e) 64
  let path := leAt b 2 1
  { kind := s.schedKind e, flags := leAt b 1 1, axis := path % 4, minus := path.testBit 2, axes := path % 8, op := leAt b 3 1
    bucket := leAt b 4 2, bankset := leAt b 6 1, ngroup := leAt b 7 1, note := leAt b 8 1, chunk := leAt b 9 1
    pkts := leAt b 0x0C 4, addr := leAt b 0x10 8, len := leAt b 0x18 4 }

/-- The cores of NGROUP; 0xFF is every core. -/
def State.ngroup (s : State) (g : Nat) : List Nat := if g = 0xFF then upto 96 else (s.group g).getD []

/-- N - 1 and STEP_RC of STEP_CFG (R237). -/
def State.nm1 (s : State) : Nat := field (s.raw 0xB000C) 23 16
def State.stepRc (s : State) : Nat := field (s.raw 0xB000C) 31 28

/-- Every core of NGROUP holds a release of entry `e` (R323). -/
def State.released (s : State) (e : Nat) : Bool :=
  (s.ngroup (s.ent e).ngroup).all fun c => decide (0 < mapGet 0 s.col.rel (c * 4096 + e))

/-- Take one release of entry `e` from every core of NGROUP (R323). -/
def State.consume (s : State) (e : Nat) : State :=
  let rel := (s.ngroup (s.ent e).ngroup).foldl (fun m c => mapMod 0 m (c * 4096 + e) (· - 1)) s.col.rel
  { s with col := { s.col with rel := rel } }

/-- MSG_TAG[15:12] of the present attempt and micro-step (R328). -/
def State.tagNow (s : State) : Nat := s.step.attempt.toNat % 4 * 4 + s.step.micro % 4

/-- Whether entry `e` concerns sequencer `q` (R320): 0 to 2 an axis, 3 the scalar sequencer. -/
def State.concerns (s : State) (q e : Nat) : Bool :=
  let n := s.ent e
  if n.kind = 1 ∨ n.kind = 2 then n.axis == q else if n.kind = 3 then q == 3 else false

/-- Whether entry `e` holds the sequencers as a step action; MICRO at N - 1 passes, and so does one with WINDOW in a re-tune
attempt (R322, R324, R325). -/
def State.isAct (s : State) (e : Nat) : Bool :=
  s.schedKind e == 4 && !(((s.ent e).op == 1) && s.step.micro == s.nm1) && !(s.windowPass e)

/-- The next entry at or after `e` that stops sequencer `q`: one it runs, or an action; none at END (R322, R325). -/
def State.stopFrom (s : State) (q : Nat) : Nat → Nat → Option Nat
  | _, 0 => none
  | e, n + 1 =>
    if s.schedKind e = 0 then none
    else if s.isAct e || (s.concerns q e && !(s.windowPass e)) then some e
    else s.stopFrom q (e + 1) n

/-- Entries of the schedule table at most (R318). -/
def schedMax : Nat := 4095

/-- The entry at which sequencer `q` stands. -/
def State.stopAt (s : State) (q : Nat) : Option Nat := s.stopFrom q (nth 0 s.col.next q) schedMax

/-- The next action at or after `e`. -/
def State.actFrom (s : State) : Nat → Nat → Option Nat
  | _, 0 => none
  | e, n + 1 => if s.schedKind e = 0 then none else if s.isAct e then some e else s.actFrom (e + 1) n

/-- The entry of action `op`: 0 OPEN, 1 MICRO, 2 MUTE, 3 STRUM (R321). -/
def State.actEntry (s : State) (op : Nat) : Option Nat :=
  (upto s.entries).find? fun e => s.schedKind e == 4 && (s.ent e).op == op

def State.setNext (s : State) (q e : Nat) : State := { s with col := { s.col with next := setAt s.col.next q e } }

/-- Every sequencer stands at entry `e`; one that passed its stretch goes on (R336). -/
def State.goAll (s : State) (e : Nat) : State := { s with col := { s.col with next := [e, e, e, e], passing := 0 } }

/-- The entry from which sequencer `q` goes on: after an action that has not ended yet, its target (R324, R325, R328). -/
def State.standing (s : State) (q : Nat) : Nat :=
  match s.step.actEnd with
  | some (0, _) => 1
  | some (1, _) => (s.ent ((s.actEntry 1).getD 0)).bucket
  | _ => nth 0 s.col.next q

/-! ## Ends of runs (R327, R335 to R337) -/

/-- Raise the NOTE counter of an entry, which is read for it (R182, R327). -/
def State.raiseNote (s : State) (e : Nat) : State :=
  let n := s.ent e
  if n.note.testBit 4 then (s.ngroup n.ngroup).foldl (fun q c => q.addRc c (n.note % 16) 1) (s.readEnt e) else s.readEnt e

/-- Count a run of entry `e` that ends short (R337, R340). -/
def State.noteShort (s : State) (e why : Nat) : State :=
  let c := s.col
  { s with col := { c with
      short := true
      firstShort := if c.short then c.firstShort else e
      why := if c.short then c.why else why } }

/-- Sequencer `q` passes the entries before the next action: each ends short at once (R336). -/
def State.passRest (s : State) (q : Nat) : Nat → Nat → State
  | _, 0 => s
  | e, n + 1 =>
    if s.schedKind e = 0 ∨ s.isAct e then s.setNext q e
    else if s.concerns q e && !(s.windowPass e) then (s.raiseNote e).passRest q (e + 1) n
    else s.passRest q (e + 1) n

def State.dropRun (s : State) (r : ColRun) : State :=
  { s with col := { s.col with runs := s.col.runs.filter fun (x : ColRun) => !(x.entry == r.entry && x.tag == r.tag) } }

def State.setRun (s : State) (r : ColRun) : State :=
  { s with col := { s.col with runs := s.col.runs.map fun (x : ColRun) => if x.entry = r.entry ∧ x.tag = r.tag then r else x } }

/-- Sequencer `q` passes the rest of its stretch (R336, R340). -/
def State.passOn (s : State) (q : Nat) : State :=
  let s1 := s.passRest q (nth 0 s.col.next q) schedMax
  { s1 with col := { s1.col with passing := s1.col.passing ||| BitVec.ofNat 4 (2 ^ q) } }

/-- A run ends short: its counter rises, and its sequencer passes the rest (R336). -/
def State.endShort (s : State) (r : ColRun) (why : Nat) : State :=
  (((s.dropRun r).noteShort r.entry why).raiseNote r.entry).passOn r.seq

/-- Length of an axis and this module's position on it. -/
def State.axisLen (s : State) (a : Nat) : Nat := s.img.shape.get a
def State.pos (s : State) (a : Nat) : Nat := s.img.coord.get a

/-- Packets of a scalar run expected on axis `a`, received or sent (R335). -/
def State.scExpect (s : State) (a pkts : Nat) : Nat :=
  pkts * (2 - b2n (s.pos a == 0) - b2n (s.pos a + 1 == s.axisLen a))

/-- Packets a vector of `len` bytes takes (R321). -/
def vecPkts (len : Nat) : Nat := (len + 2047) / 2048

/-- Expected packets received and sent by a run (R335). -/
def State.expected (s : State) (r : ColRun) : Nat × Nat :=
  let n := s.ent r.entry
  if r.kind = 1 then let x := (s.axisLen r.seq - 1) * n.pkts; (x, x)
  else if r.kind = 2 then ((s.axisLen r.seq - 1) * n.pkts, n.pkts)
  else
    let x := (((upto 3).filter fun a => r.axes.testBit a).map fun a => s.scExpect a (vecPkts r.len)).foldl (· + ·) 0
    (x, x)

/-- A finished LOSS run reports its sum (R333, R440). -/
def State.lossDone (s : State) (r : ColRun) : State :=
  if r.kind = 3 ∧ r.op = 4 then
    let v := leAt r.buf 0 4
    { s with col := { s.col with lossSum := v } }.post 0 0x0A 0 .trace 2 (leBytes 4 v)
  else s

/-- End a run whose packets are all counted (R335); a vote ends by its result instead. -/
def State.checkRun (s : State) (r : ColRun) : State :=
  if r.kind = 4 then s
  else
    let x := s.expected r
    if r.rx = x.1 ∧ r.tx = x.2 ∧ r.lost + r.failed = 0 then ((s.dropRun r).lossDone r).raiseNote r.entry
    else if 0 < r.lost + r.failed ∧ x.1 + x.2 ≤ r.rx + r.tx + r.cover then s.endShort r (if 0 < r.lost then 3 else 4)
    else s

/-- Store a changed run and end it where it is done. -/
def State.updRun (s : State) (r : ColRun) : State := (s.setRun r).checkRun r

/-- The running run that a packet names (R328). -/
def State.runOf (s : State) (p : Packet) : Option ColRun :=
  s.col.runs.find? fun r => r.entry == p.msgTag.toNat % 4096 && r.tag == p.msgTag.toNat / 4096

/-- Count a packet of `r` as failed; `cov` expected packets are covered by it (R335). -/
def State.colFail (s : State) (r : ColRun) (cov : Nat) : State :=
  { s with col := { s.col with failed := satAdd 32 s.col.failed 1 } }.updRun
    { r with failed := r.failed + 1, cover := r.cover + cov }

/-- A lost packet of run `r`, which stands for `cov` expected packets (R335). -/
def State.colMiss (s : State) (r : ColRun) (cov : Nat) : State :=
  { s with col := { s.col with lost := satAdd 32 s.col.lost 1 } }.updRun { r with lost := r.lost + 1, cover := r.cover + cov }

/-- A packet of a collective is lost on its way out: discarded from a replay buffer or dropped as undeliverable (R335). -/
def State.colLost (s : State) (p : Packet) : State :=
  if p.kind = 6 ∨ p.kind = 7 ∨ p.kind = 8 then
    match s.runOf p with
    | none => s
    | some r => s.colMiss r (b2n (p.src == s.img.coord))
  else s

/-- A link-layer acknowledgement on link `l` covers a packet of a collective that this module sent (R335). -/
def State.colAcked (s : State) (l : Nat) (p : Packet) : State :=
  if (p.kind = 6 ∨ p.kind = 7 ∨ p.kind = 8) ∧ p.src = s.img.coord then
    match s.runOf p with
    | none => s
    | some r => s.updRun { r with tx := r.tx + 1, tx1 := r.tx1 + l % 2 }
  else s

/-- What becomes of an arriving packet of a collective (R328). -/
inductive ColPkt where
  | take (r : ColRun)
  | wait
  | stale

def State.classify (s : State) (p : Packet) (q : Nat) : ColPkt :=
  match s.runOf p with
  | some r => .take r
  | none =>
    let t := p.msgTag.toNat
    let a := t / 16384
    let m := t / 4096 % 4
    let ca := s.step.attempt.toNat % 4
    let cm := s.step.micro % 4
    if p.kind = 8 ∧ p.msgTag ∈ s.step.lateVotes then .stale
    else if a = (ca + 1) % 4 then .wait
    else if a = ca ∧ ((m = cm ∧ s.standing q ≤ t % 4096) ∨ m = (cm + 1) % 4 ∨ m = (cm + 2) % 4) then .wait
    else .stale

/-- Discard a stale packet; one of a vote that has timed out is late (R328, R334). -/
def State.stalePkt (s : State) (p : Packet) : State :=
  if p.kind = 8 ∧ p.msgTag ∈ s.step.lateVotes then s.bump 0xB0060
  else { s with col := { s.col with stale := satAdd 32 s.col.stale 1 } }

/-! ## Packets -/

/-- Neighbour position along an axis, modulo its length. -/
def State.stepPos (s : State) (a : Nat) (minus : Bool) : Nat :=
  let l := s.axisLen a
  if minus then (s.pos a + l - 1) % l else (s.pos a + 1) % l

/-- A packet of a collective from this module. -/
def State.colPkt (s : State) (kind : Nat) (e tag : Nat) (dst : Coord) (addr idx cnt : Nat) (l : List Byte) : Packet :=
  { kind := BitVec.ofNat 4 kind, vc := if kind = 8 then 3 else 2, len := l.length, dst := dst, src := s.img.coord
    srcCore := 0x7F, msgTag := BitVec.ofNat 16 (e + 4096 * tag), pktIndex := BitVec.ofNat 16 idx
    pktCount := BitVec.ofNat 16 cnt, addr := BitVec.ofNat 41 addr, payload := l }

/-- Hand a packet to the router at half `h`, for the port of link `l` (R304, R329, R332). -/
def State.sendVia (s : State) (h l : Nat) (p : Packet) : State :=
  { s with rt := { s.rt with pkts := s.rt.pkts ++ [{ p := p, half := h, via := some l }] } }

/-- The link of an axis and direction (R13). -/
def linkOf (a : Nat) (minus : Bool) : Nat := 2 * a + b2n minus

/-! ## Carrier beats (R204 to R207) -/

/-- A local beat as a link adder reads it: elements, word, SPOILED; the flag is an uncorrectable error. -/
structure Beat where
  data : List Byte := []
  word : Nat := 0
  spoiled : Bool := false
  bad : Bool := false

/-- Read a beat at the link adders of half `h` (R173, R185, R330). -/
def State.readBeat (s : State) (h a : Nat) : State × Beat :=
  match regionAt s.regions a with
  | none => (s, { bad := true })
  | some r =>
    if s.accRange h a 256 ≠ .ok then (s, { bad := true })
    else
      let p := (s.cross (1 - h) h 2 (s.farBytes h a 256)).scanUnits
        (s.unitsOf a 256 ++ (if r.carrier then [unitKey (r.metaKey a)] else [])) 4 0x7F
      let m := if r.carrier then p.1.beatMeta r a else (tuneWord (p.1.bytes a 256), false)
      (p.1, ⟨p.1.bytes a 256, m.1, m.2, p.2⟩)

/-- Count a residue mismatch of bucket `b` at beat `i`, met by an adder of half `h` (R206, R340). -/
def State.residue (s : State) (h b i : Nat) : State :=
  let c := s.col
  { s with col := { c with
      residue := true
      residues := satAdd 32 c.residues 1
      resBucket := if c.residue then c.resBucket else b
      resBeat := if c.residue then c.resBeat else i } }.post h 0x0A 0 .error 1 (leBytes 2 b ++ leBytes 4 i)

/-- Check a word against the elements, unless spoiled (R206). -/
def State.checkWord (s : State) (h b i word : Nat) (data : List Byte) (spoiled : Bool) : State :=
  if spoiled || word == tuneWord data then s else s.residue h b i

/-- Mark bucket `b` in the local bitmaps (R221). -/
def State.markAny (s : State) (b : Nat) (src : Bool) : State :=
  let m := BitVec.ofNat 4096 (2 ^ b)
  { s with step := { s.step with
      spoilAny := s.step.spoilAny ||| m
      spoilSrc := if src then s.step.spoilSrc ||| m else s.step.spoilSrc } }

/-- Add two beats element by element; the flag says that one saturated (R205). -/
def addBeats (x y : List Byte) : List Byte × Bool :=
  (upto 64).foldl
    (fun (o : List Byte × Bool) i =>
      let v := sgn 32 (leAt x (4 * i) 4) + sgn 32 (leAt y (4 * i) 4)
      let w := clampI (-2147483648) 2147483647 v
      (o.1 ++ leBytes 4 (code 32 w), o.2 || decide (v ≠ w)))
    ([], false)

/-! ## Operators of the collective unit (R161) -/

/-- Lanes of `n` bytes combined by `f`. -/
def lanesBy (n : Nat) (f : Nat → Nat → Nat) (x y : List Byte) : List Byte :=
  (upto (x.length / n)).flatMap fun i => leBytes n (f (leAt x (n * i) n) (leAt y (n * i) n))

/-- Combine an incoming and a local vector; the number counts saturated SUM64 lanes. -/
def combine (op : Nat) (x y : List Byte) : List Byte × Nat :=
  if op = 0 then (lanesBy 1 (fun a b => if sgn 8 a < sgn 8 b then b else a) x y, 0)
  else if op = 1 then (lanesBy 4 (fun a b => max (a % 2 ^ 31) (b % 2 ^ 31)) x y, 0)
  else if op = 2 then (lanesBy 8 (fun a b => a ||| b) x y, 0)
  else if op = 3 then
    let sat := fun i => let v := sgn 64 (leAt x (8 * i) 8) + sgn 64 (leAt y (8 * i) 8)
      decide (v < -(2 ^ 63) ∨ 2 ^ 63 - 1 < v)
    (lanesBy 8 (fun a b => code 64 (clampI (-(2 ^ 63)) (2 ^ 63 - 1) (sgn 64 a + sgn 64 b))) x y,
      ((upto (x.length / 8)).filter sat).length)
  else (lanesBy 4 (fun a b => rb32 (FV.add (b32v a) (b32v b))) x y, 0)

end Sys2Proof.Machine
end

