-- ==== Sys2Proof/Machine/StepOps.lean ====
section
/-! DEFINITION. What the actions of the STEP block share (R213 to R236): the step record, the causes, the ends of both
votes, the start of the commit, the commands held back. -/

namespace Sys2Proof.Machine

/-! ## Step record (R214) -/

/-- First byte of the step record; none without an image. -/
def State.recAt (s : State) : Option Nat := s.img.recOff.map (commonsBase + ·)

/-- Write bytes of the step record. -/
def State.recPut (s : State) (o : Nat) (l : List Byte) : State :=
  match s.recAt with
  | none => s
  | some a => s.put (a + o) l

/-- Read a program field of the record (R185). -/
def State.recGet (s : State) (o n : Nat) : State × List Byte :=
  match s.recAt with
  | none => (s, List.replicate n 0)
  | some a => let p := s.read (a + o) n 0 0x7F; (p.1, p.2.1)

/-- DEFINED of STEP_BANK: the bank sets of the image (R215). -/
def State.bankDef (s : State) : Nat := 2 ^ s.img.banks.length - 1

/-- Write the counters, PHASE and STATUS into the record (R216). -/
def State.writeRec (s : State) (status : Nat) : State :=
  let t := s.step
  s.recPut 0 (leBytes 8 t.committed.toNat ++ leBytes 4 t.attempt.toNat ++ leBytes 1 t.micro ++ leBytes 1 t.phase.code
    ++ leBytes 1 status ++ [0] ++ leBytes 2 t.bankSel.toNat ++ leBytes 2 s.bankDef)

/-- The bytes of the record's head that a change of phase writes. -/
def State.setPhase (s : State) (p : Phase) : State :=
  { s with step := { s.step with phase := p } }.recPut 0x0D (leBytes 1 p.code)

/-- Add 1 to rc[STEP_RC] of every core (R216). -/
def State.raiseStep (s : State) : State := (upto 96).foldl (fun q c => q.addRc c q.stepRc 1) s

/-! ## Causes (R221, R228) -/

def State.anyCore (s : State) (f : CoreSt → Bool) : Bool := s.cores.any fun p => f p.2

/-- A binary32 code is infinite or NaN. -/
def nonfin32 (v : Nat) : Bool := v / 2 ^ 23 % 256 == 255

/-- The mute cause word of this module (R221). -/
def State.muteWord (s : State) (loss : Nat) : Nat :=
  b2n (s.anyCore fun k => k.vec.cst.cnf) + 2 * b2n (nonfin32 loss) + 4 * b2n (s.anyCore fun k => k.vec.cst.spoiled)
    + 8 * b2n (s.step.spoilAny != 0) + 16 * b2n s.col.residue + 32 * b2n s.step.memUe + 64 * b2n s.col.short
    + 128 * b2n (s.anyCore fun k => k.stepFault) + 256 * b2n s.step.rstLatch

/-- The strum cause word of this module (R228). -/
def State.strumWord (s : State) : Nat :=
  b2n (s.anyCore fun k => k.stepFault) + 2 * b2n (s.anyCore fun k => k.vec.cst.cnf || k.vec.cst.spoiled)
    + 4 * b2n s.col.short + 8 * b2n s.step.memUe + 16 * b2n s.step.rstLatch + 32 * b2n s.step.muted

/-- Clear every core's step-fault bit with its source, and its carrier status (R219, R222). -/
def State.clearCores (s : State) : State :=
  { s with cores := s.cores.filterMap fun p =>
      let k := { p.2 with
        stepFault := false, sfSource := 0, sfThread := 0, sfCode := 0, vec := { p.2.vec with cst := {} } }
      if k = {} then none else some (p.1, k) }

/-- Clear the accounting of the COL block (R219, R222, R340). -/
def State.clearCol (s : State) : State :=
  { s with col := { s.col with
      short := false, residue := false, firstShort := 0xFFF, why := 0, lost := 0, failed := 0, stale := 0
      residues := 0, spoiled := 0, csigXs := 0, resBeat := 0, resBucket := 0xFFF } }

/-- Clear the latches and the local bitmaps (R219, R222). -/
def State.clearLatches (s : State) : State :=
  { s with step := { s.step with memUe := false, rstLatch := false, spoilAny := 0, spoilSrc := 0 } }

/-- Clear every source that a vote samples (R222). -/
def State.clearSources (s : State) : State := s.clearCores.clearCol.clearLatches

/-! ## Commands held back (R235) -/

/-- A phase that holds START back; only COMMITTING holds HALT back. -/
def Phase.defers (p : Phase) : Bool := p == .muteVote || p == .strumVote || p == .committing

/-- START on the threads of its mask (R108, R192, R490). -/
def State.startThreads (s : State) (r : StartReq) : State :=
  (upto 96).foldl
    (fun q c =>
      if r.cores.getLsbD c then
        (upto 32).foldl
          (fun q t => if r.threads.getLsbD t then q.modThread c t fun x => x.started (r.entry.setWidth 64) r.arg else q)
          q
      else q)
    s

/-- HALT on the cores of its mask (R490). A thread that waits at a barrier has arrived there, and its arrival still counts for
that use (DEDUCED, log 50). -/
def State.haltCores (s : State) (cores : BitVec 96) : State :=
  (upto 96).foldl
    (fun q c =>
      if cores.getLsbD c && (q.core c).ready && !(q.core c).faultState then
        (upto 32).foldl
          (fun q t =>
            let x := q.thread c t
            if x.st = .run ∨ x.st = .stopped then q.setThread c t ({ x with st := .ending }.endCheck) else q)
          q
      else q)
    s

/-- Whether START meets its conditions (R235, R490). -/
def State.startOk (s : State) (r : StartReq) : Bool :=
  (upto 96).all fun c =>
    !(r.cores.getLsbD c)
      || (let k := s.core c
          k.ready && !k.faultState && decide (0 < k.progSize) && s.pcOk c (r.entry.setWidth 64)
            && (upto 32).all fun t => !(r.threads.getLsbD t) || decide ((k.thread t).st = .idle))
    && s.step.phase != .uncertain

/-- START takes effect: scales are recomputed, an open attempt fails (R192, R235). -/
def State.startNow (s : State) (r : StartReq) : State :=
  let s1 := s.rescaleAll
  let s2 := if s.step.phase = .window ∨ s.step.phase = .muted ∨ s.step.phase = .update then s1.setPhase .failed else s1
  s2.startThreads r

/-- Carry out what was held back, once the phase holds nothing back; a START whose conditions have lapsed does nothing. -/
def State.runDeferred (s : State) : State :=
  if s.step.phase.defers then s
  else
    s.step.deferred.foldl
      (fun q r => if r.halt then q.haltCores r.cores else if q.startOk r then q.startNow r else q)
      { s with step := { s.step with deferred := [] } }

/-! ## Ends of the votes -/

/-- Entries from `e` to before the next action pass, each raising its counter (R326). -/
def State.passAll (s : State) : Nat → Nat → State
  | _, 0 => s
  | e, n + 1 => if s.schedKind e = 0 ∨ s.isAct e then s else (s.raiseNote e).passAll (e + 1) n

/-- Duration of the vote in progress by the TIME count (R237, R409). -/
def State.voteTime (s : State) : Nat := (s.timeCount - s.step.voteCount).toNat

/-- Whether the vote timer has expired: the cycle of expiry itself still takes a result (R224). -/
def State.voteDue (s : State) : Bool := decide (s.step.voteAt + s.step.voteLimit < s.now)

/-- The vote in progress ends; its run goes (R224). -/
def State.endVote (s : State) : State :=
  { s with col := { s.col with runs := s.col.runs.filter fun (r : ColRun) => r.kind ≠ 4 } }

/-- The mute result is held: `v` is the vector of 1280 B (R223 to R226, R233). -/
def State.muteResult (s : State) (v : List Byte) : State :=
  let job := leAt v 0 8
  let muted := !(allZero v)
  let s1 := s.endVote
  let s2 := { s1 with step := { s1.step with
      muteJob := BitVec.ofNat 64 job, muteDone := true, muted := muted, muteTime := s.voteTime
      actEnd := some (2, 0) } }
  let s3 := (s2.recPut 0x20 (slice v 0 8)).recPut 0x200 (slice v 256 1024)
  let s4 := if muted then (s3.bump 0xB0058).post 0 0x0B 0 .notice 3 (leBytes 8 job) else s3
  s4.setPhase (if muted then .muted else .update)

/-- The commit action starts: COMMITTING, selectors flip (R229 steps 1 and 2). `sil` is the bitmaps of the strum result. -/
def State.startCommit (s : State) (sil : List Byte) : State :=
  let s1 := { s with step := { s.step with
      bankSel := s.step.bankSel ^^^ BitVec.ofNat 16 s.bankDef
      silNz := BitVec.ofNat 1024 (leNat (slice sil 0 128))
      silFs := BitVec.ofNat 1024 (leNat (slice sil 128 128)) } }
  s1.setPhase .committing

/-- The strum result is held: `v` is the vector of 512 B (R229, R230, R233). -/
def State.strumResult (s : State) (v : List Byte) : State :=
  let job := leAt v 0 8
  let s1 := s.endVote
  let s2 := { s1 with step := { s1.step with
      strumJob := BitVec.ofNat 64 job, strumDone := true, strumTime := s.voteTime } }
  let s3 := s2.recPut 0x28 (slice v 0 8)
  if job = 0 then s3.startCommit (slice v 256 256)
  else
    let s4 := { s3 with step := { s3.step with strumFailed := true, actEnd := some (3, 0) } }
    ((s4.bump 0xB005C).post 0 0x0B 0 .error 6 (leBytes 8 job)).setPhase .failed

/-- The vote in progress times out: packets of it that come later are late (R224, R334). -/
def State.voteGone (s : State) : State :=
  let tags := (s.col.runs.filter fun (r : ColRun) => r.kind = 4).map fun r => BitVec.ofNat 16 (r.entry + 4096 * r.tag)
  let s1 := s.endVote
  { s1 with step := { s1.step with lateVotes := tags ++ s1.step.lateVotes } }

/-- The mute vote has timed out: the attempt counts as muted (R224, R225). -/
def State.muteExpire (s : State) : State :=
  let s1 := s.voteGone
  let s2 := { s1 with step := { s1.step with
      muteJob := 0, muteDone := true, muted := true, muteTimeout := true, muteTime := s.voteTime
      actEnd := some (2, 2) } }
  (((s2.recPut 0x20 (leBytes 8 0)).bump 0xB0058).post 0 0x0B 0 .error 2 [0]).setPhase .muted

/-- The strum has timed out: FAILED, or UNCERTAIN where the module voted ready (R224, R231). -/
def State.strumExpire (s : State) : State :=
  let s1 := s.voteGone
  let s2 := { s1 with step := { s1.step with
      strumDone := true, strumTimeout := true, strumTime := s.voteTime, actEnd := some (3, 2) } }
  let s3 := ((s2.bump 0xB005C).post 0 0x0B 0 .error 2 [1]).post 0 0x0B 0 .error 7 (leBytes 1 (b2n s.step.votedReady))
  s3.setPhase (if s.step.votedReady then .uncertain else .failed)

/-- The timer of the vote in progress takes effect. -/
def State.voteExpire (s : State) : State :=
  match s.step.phase with
  | .muteVote => s.muteExpire
  | .strumVote => s.strumExpire
  | _ => s

end Sys2Proof.Machine
end

