-- ==== Sys2Proof/Machine/Collect.lean ====
section
/-! DEFINITION. Collectives in the link interfaces (R318 to R339). -/

namespace Sys2Proof.Machine

/-! ## Releases (R323) -/

/-- Whether an entry before action `e` still waits or runs (R336). -/
def State.pendingBefore (s : State) (e : Nat) : Bool :=
  decide (s.col.runs ≠ []) || (upto 4).any fun q => decide (s.stopAt q ≠ some e)

/-- CSIG: adds 1 to the core's release count of the entry, up to 3; a further one, one beyond the schedule and one for an
entry that passes are ignored and counted (R323, R339). The release of a step action starts DRAIN_TIMEOUT (R336). -/
def execCsig (c : CoreId) (t : ThreadId) (f : IFields) (s : State) : Host.Outcome State Fault Refusal :=
  s.decoded c t (4, 0x08) f <|
  s.issue c t [] (f.plain && f.noRegs && f.im 29 12 == 0) fun s1 x =>
    let e := f.im 11 0
    let k := c.val * 4096 + e
    let n := mapGet 0 s1.col.rel k
    if s1.entries ≤ e ∨ 3 ≤ n ∨ s1.windowPass e then .done s1.csigIgnored x.next
    else
      let s2 := { s1 with col := { s1.col with rel := mapSet 0 s1.col.rel k (n + 1) } }
      let due := s2.isAct e && (s2.ent e).op != 0 && !(s2.col.drains.any fun d => d.1 == e) && s2.released e && s2.pendingBefore e
      .done (if due then { s2 with col := { s2.col with drains := s2.col.drains ++ [(e, s.now)] } } else s2) x.next

/-! ## Starts -/

/-- Runs in progress of sequencer `q`. -/
def State.runsOf (s : State) (q : Nat) : List ColRun := s.col.runs.filter fun (r : ColRun) => r.seq == q

/-- The entry that sequencer `q` may start now: one of kind `kind`, its conditions met (R311, R322, R323, R325). -/
def State.startable (s : State) (q kind : Nat) : Option Nat :=
  match s.stopAt q with
  | none => none
  | some e =>
    let n := s.ent e
    let rel := n.flags.testBit 1
    let redo := s.col.retune && n.flags.testBit 2
    let full := !(n.flags.testBit 0) || (if redo then s.released e else s.col.full.getLsbD n.bucket)
    let room := if q = 3 then decide (s.runsOf q = []) else decide ((s.runsOf q).length < 4)
    if n.kind = kind ∧ s.isAct e = false ∧ s.rt.quiesced = false ∧ s.boot.released ∧ room ∧ full
      ∧ (!rel || s.released e) ∧ s.step.actEnd.isNone then some e
    else none

/-- Start a run: its entry has been read, a release of every core of NGROUP is taken, the sequencer goes on (R182, R323). -/
def State.startRun (s : State) (e : Nat) (r : ColRun) : State :=
  let s1 := ((s.readEnt e).consume e).setNext r.seq (e + 1)
  { s1 with col := { s1.col with runs := s1.col.runs ++ [r] } }

/-- A new run of entry `e` on sequencer `q`. -/
def State.newRun (s : State) (q e : Nat) : ColRun :=
  let n := s.ent e
  { seq := q, entry := e, kind := n.kind, tag := s.tagNow, startedAt := s.now, op := n.op, axes := n.axes, base := n.addr, len := n.len }

/-- The run of entry `e` as it stands. -/
def State.runAt (s : State) (e tag : Nat) : ColRun :=
  (s.col.runs.find? fun (r : ColRun) => r.entry == e && r.tag == tag).getD {}

/-- Set beats of a carrier packet: what one local beat gives (R205, R206, R221). -/
def State.noteBeat (s : State) (h b i : Nat) (x : Beat) : State :=
  let s1 := s.checkWord h b i x.word x.data x.spoiled
  if x.spoiled then s1.markAny b true else s1

/-- Read the local beats of `n` bytes at `base + off` (R330). -/
def State.readBeats (s : State) (h base off n b : Nat) : State × List Beat :=
  (upto (n / 256)).foldl
    (fun (p : State × List Beat) i =>
      let q := p.1.readBeat h (base + off + 256 * i)
      (if q.2.bad then q.1 else q.1.noteBeat h b (off / 256 + i) q.2, p.2 ++ [q.2]))
    (s, [])

/-- Inject one packet of the chain that begins here (R329, R330). -/
def State.injectChunk (s : State) (e tag l part i : Nat) : State :=
  let n := s.ent e
  let k := mapGet {} s.buckets n.bucket
  let plen := k.len / s.axisLen n.axis
  let o := i * 256 * n.chunk
  let len := min (256 * n.chunk) (plen - o)
  let off := part * plen + o
  let p := s.readBeats (l % 2) k.base off len n.bucket
  let r := p.1.runAt e tag
  if p.2.any (·.bad) then p.1.colFail r 1
  else
    let sp := p.2.any (·.spoiled)
    let dst := s.img.coord.set n.axis (s.stepPos n.axis n.minus)
    let pk := p.1.colPkt 6 e tag dst off i n.pkts (p.2.flatMap (·.data))
    let pk1 := { pk with
      carrier := true, spSrc := sp, bucket := BitVec.ofNat 12 n.bucket, e := BitVec.ofInt 8 r.e
      last := decide (i + 1 = n.pkts), words := p.2.map fun x => BitVec.ofNat 16 x.word }
    let s1 := p.1.sendVia (l % 2) l pk1
    if sp then { s1 with col := { s1.col with spoiled := satAdd 32 s1.col.spoiled 1 } } else s1

/-- RS_RUN_START: a reduce-scatter run starts and injects the chain that begins at this module (R208, R329, R330). One whose
effective scale is beyond 127 or reserved does not start (R40, R208). -/
def execRsRunStart (a : AxisId) (s : State) : Host.Outcome State Fault Refusal :=
  match s.startable a 1 with
  | none => .next s
  | some e =>
    let n := s.ent e
    let sc := s.effScale n.bucket
    let r := { s.newRun a e with e := sc }
    let s1 := (s.noteRead (s.descAt (mapGet {} s.buckets n.bucket).desc) 64).startRun e r
    if s.scaleOk n.bucket = false then
      let x := s1.expected r
      let s2 := { s1 with col := { s1.col with failed := satAdd 32 s1.col.failed (x.1 - 1) } }
      .next (s2.colFail r (x.1 + x.2))
    else
      let part := s.stepPos a (!n.minus)
      .next ((upto n.pkts).foldl (fun q i => q.injectChunk e r.tag (linkOf a n.minus) part i) s1)

/-- Base of the array that an AG entry gathers into: within the shadow copy with BANK (R331). -/
def State.agBase (s : State) (n : SchedEnt) : Nat :=
  if n.flags.testBit 3 then
    let b := nth {} s.img.banks n.bankset
    (if s.step.bankSel.getLsbD n.bankset then b.copy0 else b.copy1) + n.addr
  else n.addr

/-- Send one packet of this module's part (R331). -/
def State.injectMcast (s : State) (e tag l i : Nat) : State :=
  let n := s.ent e
  let r := s.runAt e tag
  let o := i * 256 * n.chunk
  let len := min (256 * n.chunk) (n.len - o)
  let dst := r.base + s.pos n.axis * n.len + o
  let src := if n.flags.testBit 4 then (mapGet {} s.buckets n.bucket).result + o else dst
  if s.accRange (l % 2) src len ≠ .ok then s.colFail r 1
  else
    let p := (s.cross (1 - l % 2) (l % 2) 2 (s.farBytes (l % 2) src len)).read src len 0 0x7F
    if p.2.2 then p.1.colFail (p.1.runAt e tag) 1
    else
      let d := s.img.coord.set n.axis (s.stepPos n.axis (!n.minus))
      let pk := p.1.colPkt 7 e tag d dst i n.pkts p.2.1
      p.1.sendVia (l % 2) l { pk with mc := true, mcAxis := BitVec.ofNat 2 n.axis, mcDir := n.minus, last := decide (i + 1 = n.pkts) }

/-- AG_RUN_START: an all-gather run starts and sends this module's part (R331). -/
def execAgRunStart (a : AxisId) (s : State) : Host.Outcome State Fault Refusal :=
  match s.startable a 2 with
  | none => .next s
  | some e =>
    let n := s.ent e
    let r := { s.newRun a e with base := s.agBase n }
    .next ((upto n.pkts).foldl (fun q i => q.injectMcast e r.tag (linkOf a n.minus) i) (s.startRun e r))

/-! ## Privileged channels (R332 to R334) -/

/-- The unit of half `h` reads a packet's worth of the operand buffer; the flag says that the access does not answer or met
an uncorrectable error (R172, R189, R335; log 52). -/
def State.bufRead (s : State) (h : Nat) (r : ColRun) (i : Nat) : State × List Byte × Bool :=
  let n := min 2048 (r.len - 2048 * i)
  let a := r.base + 2048 * i
  if r.kind = 3 ∧ r.op = 4 then (s, slice r.buf (2048 * i) n, false)
  else if s.accRange h a n ≠ .ok then (s, [], true)
  else (s.cross (1 - h) h 2 (s.farBytes h a n)).read a n 0 0x7F

/-- The unit of half `h` writes a packet's worth of the buffer; the flag says that the write failed (R172, R185, R189). -/
def State.bufWrite (s : State) (h : Nat) (r : ColRun) (i : Nat) (l : List Byte) : State × Bool :=
  let a := r.base + 2048 * i
  if r.kind = 3 ∧ r.op = 4 then (s.setRun { r with buf := putAt r.buf (2048 * i) l }, false)
  else if s.accRange h a l.length ≠ .ok then (s, true)
  else (s.cross h (1 - h) 2 (s.farBytes h a l.length)).write a l 0x7F

/-- The first axis of a set from `a` on. -/
def axisFrom (axes a : Nat) : Option Nat := (upto 3).find? fun x => decide (a ≤ x) && axes.testBit x

/-- The unit of half `h` sends a scalar packet to the neighbour at position `k` of the run's axis. -/
def State.sendScalar (s : State) (h : Nat) (r : ColRun) (k i : Nat) (l : List Byte) : State :=
  let minus := decide (k < s.pos r.axis)
  s.sendVia h (linkOf r.axis minus)
    (s.colPkt 8 r.entry r.tag (s.img.coord.set r.axis k) 0 i (vecPkts r.len) l)

/-- A privileged-channel run with a failed packet of its own operand ends short here (R335). -/
def State.scCut (s : State) (r : ColRun) : State :=
  match s.col.runs.find? fun (x : ColRun) => x.entry == r.entry && x.tag == r.tag with
  | some x => if x.kind = 3 ∧ 0 < x.failed then s.endShort x 4 else s
  | none => s

/-- The module at k = 0 sends its buffer up the chain, once the axis starts (R332). -/
def State.startAxis (s : State) (r : ColRun) : State :=
  if s.pos r.axis = 0 ∧ s.img.coordValid then
    ((upto (vecPkts r.len)).foldl
      (fun q i =>
        let p := q.bufRead 1 r i
        if p.2.2 then p.1.colFail (p.1.runAt r.entry r.tag) 1 else p.1.sendScalar 1 r 1 i p.2.1)
      s).scCut r
  else s

/-- The result of the last axis is in the buffer: a vote has its result, unless its timer has expired (R224, R334). -/
def State.scDone (s : State) (r : ColRun) : State :=
  if r.kind = 4 then
    if s.voteDue then s.voteExpire.bump 0xB0060
    else
      let p := s.read r.base r.len 0 0x7F
      if s.step.phase = .muteVote then p.1.muteResult p.2.1
      else if s.step.phase = .strumVote then p.1.strumResult p.2.1
      else s
  else s

/-- A packet's result has reached the buffer: the axis may end and the next begin (R332). -/
def State.axisStep (s : State) (entry tag : Nat) : State :=
  let r := s.runAt entry tag
  let r1 := { r with beats := r.beats + 1 }
  if r1.beats < vecPkts r.len then s.setRun r1
  else
    match axisFrom r.axes (r.axis + 1) with
    | some a => let r2 := { r1 with axis := a, beats := 0 }; (s.setRun r2).startAxis r2
    | none => (s.setRun r1).scDone r1

/-- A packet that a collective unit could not write or combine: failed, and an SC run ends short here (R335). -/
def State.scFail (s : State) (r : ColRun) (cov : Nat) : State := (s.colFail r cov).scCut r

/-- SC_RUN_START: the scalar sequencer starts a privileged-channel run (R332, R333). -/
def execScRunStart (s : State) : Host.Outcome State Fault Refusal :=
  match s.startable 3 3 with
  | none => .next s
  | some e =>
    let n := s.ent e
    let p := if n.op = 4 then s.recGet 0x18 4 else (s, [])
    let r := { s.newRun 3 e with axis := (axisFrom n.axes 0).getD 0, buf := if n.op = 4 then p.2 ++ List.replicate 252 0 else [] }
    let s1 := p.1.startRun e r
    if n.axes = 0 then .next (((s1.lossDone r).dropRun r).raiseNote e) else .next (s1.startAxis r)

/-- Whether a scalar packet comes up the chain: from the lower position on the run's axis (R332). -/
def chainFrom (c : Coord) (p : Packet) : Bool := decide (p.src.x < c.x ∨ p.src.y < c.y ∨ p.src.z < c.z)

/-- Whether place `i` of the ejection queue is the head of its queue: on VC2 and VC3 no earlier packet came by the same link
on the same VC (R328). -/
def State.ejHead (s : State) (i : Nat) : Bool :=
  match s.rt.ejq[i]? with
  | none => false
  | some x => decide (x.p.vc.toNat < 2) || !((s.rt.ejq.take i).any fun y => y.inLink == x.inLink && y.p.vc == x.p.vc)

/-- Take from the ejection queue the first packet that `ok` allows and that stands at the head of its queue (R328). -/
def State.ejFirst (s : State) (ok : RPkt → Bool) : Option (RPkt × State) :=
  match (upto s.rt.ejq.length).find? fun i => s.ejHead i && (match s.rt.ejq[i]? with | none => false | some x => ok x) with
  | none => none
  | some i =>
    match s.rt.ejq[i]? with
    | none => none
    | some x => some (x, { s with rt := { s.rt with ejq := delAt s.rt.ejq i } })

/-- A scalar packet that a unit can act on: one that a run takes on its axis, or a stale one (R328). -/
def State.scPick (s : State) (chain : Bool) (x : RPkt) : Bool :=
  x.p.kind == 8 && (chainFrom s.img.coord x.p == chain)
    && (match s.classify x.p 3 with
        | .take r => decide (x.p.src = s.img.coord.set r.axis (x.p.src.get r.axis))
        | .wait => false
        | .stale => true)

/-- Bytes that the hold buffer of the unit with `chain` holds (R328). -/
def State.holdBytes (s : State) (chain : Bool) : Nat :=
  ((s.col.hold.filter fun (x : RPkt) => chainFrom s.img.coord x.p == chain).map fun (x : RPkt) => x.p.len).foldl (· + ·) 0

/-- The scalar packet of a unit at the head of its ejection queue moves to the hold buffer where it has room (R328). -/
def State.holdFill (s : State) (chain : Bool) : State :=
  match s.ejFirst fun x => x.p.kind == 8 && chainFrom s.img.coord x.p == chain && decide (s.holdBytes chain + x.p.len ≤ 131072) with
  | some (x, s1) => { s1 with col := { s1.col with hold := s1.col.hold ++ [x] } }
  | none => s

/-- Take the first scalar packet that a unit can act on, from its hold buffer and then from the head of the ejection queue
(R328). -/
def State.scTake (s : State) (chain : Bool) : Option (Packet × State) :=
  match takeFirst (s.scPick chain) s.col.hold with
  | some (x, r) => some (x.p, { s with col := { s.col with hold := r } }.holdFill chain)
  | none => (s.ejFirst (s.scPick chain)).map fun y => (y.1.p, y.2)

/-- The expected packets that an arriving packet stands for when it is not handled: itself, and the one that would have been
sent for it (R335). -/
def State.coverOf (s : State) (r : ColRun) (p : Packet) : Nat :=
  let n := s.ent r.entry
  if r.kind = 1 then
    let plen := (mapGet {} s.buckets n.bucket).len / s.axisLen n.axis
    if p.addr.toNat / plen = s.pos n.axis then 1 else 2
  else if r.kind = 2 then 1
  else if chainFrom s.img.coord p || decide (0 < s.pos r.axis) then 2 else 1

/-- SC_CHAIN_BEAT: the unit of core 48 combines a chain packet with the buffer and sends it on, or writes it at the end of
the chain and starts the return (R161, R162, R332). -/
def execScChainBeat (s : State) : Host.Outcome State Fault Refusal :=
  match s.scTake true with
  | none => .next s
  | some (p, s0) =>
    match s0.runOf p with
    | none => .next (s0.stalePkt p)
    | some r =>
      if (s0.core 48).ready = false then .next (s0.colMiss r (s0.coverOf r p))
      else
        let i := p.pktIndex.toNat
        let q := s0.bufRead 1 r i
        if q.2.2 then .next (q.1.scFail r 2)
        else
          let op := if r.kind = 4 then 2 else r.op
          let c := combine op p.payload q.2.1
          let s1 := q.1.bumpBy (aVec 48 0x020) 32 (c.1.length / 256)
          let s2 := if c.2 = 0 then s1 else (s1.bumpBy (aVec 48 0x024) 16 c.2).stepFault 48 10 0 0
          let r1 := { r with rx := r.rx + 1 }
          let s3 := s2.setRun r1
          if s.pos r.axis + 1 = s.axisLen r.axis then
            let w := s3.bufWrite 1 r1 i c.1
            if w.2 then .next (w.1.scFail r 2)
            else
              let s5 := (w.1.sendScalar 1 (w.1.runAt r.entry r.tag) (s.pos r.axis - 1) i c.1).axisStep r.entry r.tag
              .next (s5.checkRun (s5.runAt r.entry r.tag))
          else .next ((s3.sendScalar 1 r1 (s.pos r.axis + 1) i c.1).checkRun r1)

/-- SC_RETURN_BEAT: the unit of core 0 writes a return packet into the buffer and relays it (R332). -/
def execScReturnBeat (s : State) : Host.Outcome State Fault Refusal :=
  match s.scTake false with
  | none => .next s
  | some (p, s0) =>
    match s0.runOf p with
    | none => .next (s0.stalePkt p)
    | some r =>
      if (s0.core 0).ready = false then .next (s0.colMiss r (s0.coverOf r p))
      else
        let i := p.pktIndex.toNat
        let r1 := { r with rx := r.rx + 1 }
        let w := (s0.setRun r1).bufWrite 0 r1 i p.payload
        if w.2 then .next (w.1.scFail r (s0.coverOf r p))
        else
          let s2 := if 0 < s.pos r.axis then w.1.sendScalar 0 (w.1.runAt r.entry r.tag) (s.pos r.axis - 1) i p.payload else w.1
          let s3 := s2.axisStep r.entry r.tag
          .next (s3.checkRun (s3.runAt r.entry r.tag))

/-! ## Arriving chunks and multicasts -/

/-- Take the packet of a kind that stands at the head of link `l`'s VC2 ejection queue (R328). -/
def State.ejTake (s : State) (kind l : Nat) : Option (Packet × State) :=
  (s.ejFirst fun x => x.p.kind == BitVec.ofNat 4 kind && x.inLink == some l).map fun y => (y.1.p, y.2)

/-- Write one beat of a result, which replaces what its units held, with its word and mark; the flag says that the metadata
could not be written (R185, R206, R207). -/
def State.writeBeat (s : State) (a w : Nat) (d : List Byte) (spoiled : Bool) : State × Bool :=
  let us := s.unitsOf a 256
  let s1 := { s with mem := writeBytes s.regions s.mem a d, ecc := s.ecc.filter fun e => !us.contains e.key }
  match regionAt s.regions a with
  | none => (s1, false)
  | some r => if r.carrier then s1.putMeta r a w spoiled 0x7F else (s1, false)

/-- Write a result packet with its words and marks (R206, R207). -/
def State.writeResult (s : State) (h a b off : Nat) (data : List Byte) (words : List Nat) (spoiled : Bool) : State × Bool :=
  steps
    (fun q i =>
      let d := slice data (256 * i) 256
      (q.checkWord h b (off / 256 + i) (nth 0 words i) d spoiled).writeBeat (a + 256 * i) (nth 0 words i) d spoiled)
    s (upto (data.length / 256))

/-- CHUNK_RX: the adder checks the header, adds the local beats, and forwards the chunk or writes the result (R205 to
R208, R221, R330). -/
def execChunkRx (l : LinkId) (s : State) : Host.Outcome State Fault Refusal :=
  match s.ejTake 6 l with
  | none => .next s
  | some (p, s0) =>
    match s.classify p (l / 2) with
    | .wait => .next s
    | .stale => .next (s0.stalePkt p)
    | .take r =>
      let n := s.ent r.entry
      let a := n.axis
      let k := mapGet {} s.buckets n.bucket
      let plen := k.len / s.axisLen a
      let off := p.addr.toNat
      let own := off / plen == s.pos a
      let r1 := { r with rx := r.rx + 1, rx1 := r.rx1 + l.val % 2 }
      if p.bucket.toNat ≠ n.bucket ∨ p.e ≠ BitVec.ofInt 8 r.e ∨ scaleRes p.e.toInt then .next (s0.colFail r (if own then 1 else 2))
      else
        let q := s0.readBeats (l % 2) k.base off p.len n.bucket
        if q.2.any (·.bad) then .next (q.1.colFail r (if own then 1 else 2))
        else
          let sums := (upto q.2.length).map fun i => addBeats (slice p.payload (256 * i) 256) (nth {} q.2 i).data
          let sat := sums.any (·.2)
          let src := p.spSrc || q.2.any (·.spoiled)
          let ring := p.spRing || sat
          let words := (upto q.2.length).map fun i => ((nth 0 p.words i).toNat + (nth {} q.2 i).word) % 65521
          let data := sums.flatMap (·.1)
          let s1 := if src || ring then q.1.markAny n.bucket src else q.1
          let s2 := if src || ring then { s1 with col := { s1.col with spoiled := satAdd 32 s1.col.spoiled 1 } } else s1
          if own then
            let ra := k.result + (off - s.pos a * plen)
            if s.accRange (l % 2) ra p.len ≠ .ok then .next (s2.colFail r 1)
            else
              let s3 := s2.cross (l % 2) (1 - l % 2) 2 (s.farBytes (l % 2) ra p.len)
              let w := s3.writeResult (l.val % 2) ra n.bucket off data words (src || ring)
              .next (if w.2 then w.1.colFail r 1 else w.1.updRun r1)
          else
            let dst := s.img.coord.set a (s.stepPos a n.minus)
            let pk := { p with
              src := s.img.coord, dst := dst, spSrc := src, spRing := ring, payload := data, cmark := false
              words := words.map fun w => BitVec.ofNat 16 w }
            .next ((s2.sendVia (l % 2) (linkOf a n.minus) pk).updRun r1)

/-- MCAST_RX: the payload is written and the packet forwarded unless this is its last module (R304, R328, R331). -/
def execMcastRx (l : LinkId) (s : State) : Host.Outcome State Fault Refusal :=
  match s.ejTake 7 l with
  | none => .next s
  | some (p, s0) =>
    match s.classify p p.mcAxis.toNat with
    | .wait => .next s
    | .stale => .next (s0.stalePkt p)
    | .take r =>
      let a := p.addr.toNat
      let bad := decide (s.accRange (l % 2) a p.len ≠ .ok) || !(s.oneRegion (a, p.len)) || s.touchesProg a p.len
      let w : State × Bool :=
        if bad then (s0, true)
        else (s0.cross (l % 2) (1 - l % 2) 2 (s.farBytes (l % 2) a p.len)).write a p.payload 0x7F
      let s2 := if w.2 then w.1.colFail r 1 else w.1.updRun { r with rx := r.rx + 1, rx1 := r.rx1 + l.val % 2 }
      if p.dst = s.img.coord then .next s2 else .next (s2.sendVia (l % 2) (linkOf p.mcAxis.toNat p.mcDir) p)

/-! ## Timeouts (R336) -/

/-- ENTRY_TIMEOUT: the oldest run of a sequencer that still runs after ENTRY_TIMEOUT ends short. -/
def execEntryTimeout (q : Fin 4) (s : State) : Host.Outcome State Fault Refusal :=
  match (s.runsOf q).find? fun (r : ColRun) =>
    r.kind != 4 && decide (r.startedAt + 1000000 * field (s.raw 0xA0004) 31 16 ≤ s.now) with
  | some r => .next (s.endShort r 1)
  | none => .next s

/-- DRAIN_TIMEOUT: after a step action's release, every entry still waiting or running ends short. Each release has its own
timer. -/
def execDrainTimeout (s : State) : Host.Outcome State Fault Refusal :=
  match s.col.drains.find? fun d => decide (d.2 + 1000000 * field (s.raw 0xA0004) 15 0 ≤ s.now) with
  | some d =>
    let s1 := { s with col := { s.col with drains := s.col.drains.filter fun x => x.1 ≠ d.1 } }
    let s2 := (s1.col.runs.filter fun (r : ColRun) => r.kind ≠ 4).foldl (fun q r => q.endShort r 2) s1
    .next ((upto 4).foldl
      (fun q i =>
        match q.stopAt i with
        | some e => if q.isAct e then q else (q.noteShort e 2).passOn i
        | none => q)
      s2)
  | none => .next s

end Sys2Proof.Machine
end

