-- ==== Sys2Proof/Machine/PktCode.lean ====
section
/-! DEFINITION. The layout of packets and link messages on the wire: the packet header, payload and trailer (R282 to R285),
the IDENT and VERDICT messages (R268), the credits and sequence of a group (R261). -/

namespace Sys2Proof.Machine

/-! ## Kinds (R284) -/

def kPutData : BitVec 4 := 0
def kGetReq : BitVec 4 := 1
def kGetResp : BitVec 4 := 2
def kAck : BitVec 4 := 3
def kNack : BitVec 4 := 4
def kNotify : BitVec 4 := 5
def kChunk : BitVec 4 := 6
def kMcast : BitVec 4 := 7
def kScalar : BitVec 4 := 8
def kMgmt : BitVec 4 := 9

/-- A packet of a collective: CHUNK, MCAST or SCALAR. -/
def Packet.col (p : Packet) : Bool := p.kind == kChunk || p.kind == kMcast || p.kind == kScalar

/-- Bulk traffic: VC0 and VC1 (R293). -/
def Packet.bulk (p : Packet) : Bool := decide (p.vc.toNat < 2)

/-- Whether the kind may travel on the packet's VC (R284). -/
def Packet.vcOk (p : Packet) : Bool :=
  if p.kind.toNat < 3 then decide (p.vc.toNat < 3)
  else if p.kind = kChunk ∨ p.kind = kMcast then p.vc == 2
  else p.vc == 3

/-- The largest LEN of a kind (R284). -/
def lenMax (k : BitVec 4) : Nat :=
  if k = kScalar then 2048 else if k = kMgmt then 256 else if k = kAck ∨ k = kNack ∨ k = kNotify then 0 else 8192

/-- A packet that every router and receiver drops (R285). -/
def Packet.bad (p : Packet) : Bool :=
  decide (10 ≤ p.kind.toNat) || !p.vcOk || decide (lenMax p.kind < p.len) || (p.carrier && p.kind != kChunk) || p.resBad

/-! ## Bytes -/

/-- Bytes of the payload: a GET_REQ has none, its LEN is the number requested (R284). -/
def payLen (kind : BitVec 4) (len : Nat) : Nat := if kind = kGetReq then 0 else len

/-- Flits of a packet of the given fields (R282). -/
def flitsOf (kind : BitVec 4) (carrier : Bool) (len : Nat) : Nat :=
  (32 + payLen kind len + (if carrier then len / 128 else 0) + 63) / 64

def Packet.flits (p : Packet) : Nat := flitsOf p.kind p.carrier p.len

def coordBytes (c : Coord) : List Byte := [BitVec.ofNat 8 c.x, BitVec.ofNat 8 c.y, BitVec.ofNat 8 c.z]

/-- The header of R283. -/
def Packet.header (p : Packet) : List Byte :=
  leBytes 1 (p.kind.toNat + 16 * p.vc.toNat + 64 * b2n p.esc + 128 * b2n p.cmark)
    ++ leBytes 1 (b2n p.last + 2 * b2n p.carrier + 4 * b2n p.spSrc + 8 * b2n p.spRing + 16 * b2n p.notifyEn + 32 * b2n p.echo)
    ++ leBytes 2 p.len ++ coordBytes p.dst ++ leBytes 1 p.dl.toNat ++ coordBytes p.src
    ++ leBytes 1 (p.mcAxis.toNat + 4 * b2n p.mcDir + 8 * b2n p.mc) ++ [0] ++ leBytes 1 p.srcCore.toNat
    ++ leBytes 2 p.msgTag.toNat ++ leBytes 2 p.pktIndex.toNat ++ leBytes 2 p.pktCount.toNat ++ leBytes 6 p.addr.toNat
    ++ leBytes 2 p.notify.toNat ++ leBytes 2 p.bucket.toNat ++ leBytes 1 p.e.toNat ++ leBytes 1 p.status.toNat

/-- A 64 B flit of bytes. -/
def flitBits (l : List Byte) : BitVec 512 := BitVec.ofNat 512 (leNat (slice l 0 64))

/-- The bytes of a flit. -/
def flitBytes (f : BitVec 512) : List Byte := leBytes 64 f.toNat

/-- The flits of a packet: header, payload and trailer, padded with zeros (R282). -/
def Packet.encode (p : Packet) : List (BitVec 512) :=
  let b := p.header ++ slice p.payload 0 (payLen p.kind p.len) ++ p.words.flatMap fun w => leBytes 2 w.toNat
  (upto p.flits).map fun i => flitBits (b.drop (64 * i))

def coordAt (l : List Byte) (o : Nat) : Coord := ⟨leAt l o 1 % 64, leAt l (o + 1) 1 % 64, leAt l (o + 2) 1 % 64⟩

/-- The packet that flits carry (R282, R283); the padding is ignored. -/
def decodePacket (fs : List (BitVec 512)) : Packet :=
  let b := fs.flatMap flitBytes
  let g := fun o n => leAt b o n
  let b0 := g 0 1
  let b1 := g 1 1
  let len := g 2 2 % 16384
  let kind := BitVec.ofNat 4 b0
  let carrier := b1.testBit 1
  let pl := payLen kind len
  { kind := kind, vc := BitVec.ofNat 2 (b0 / 16), esc := b0.testBit 6, cmark := b0.testBit 7
    last := b1.testBit 0, carrier := carrier, spSrc := b1.testBit 2, spRing := b1.testBit 3, notifyEn := b1.testBit 4
    echo := b1.testBit 5, len := len, dst := coordAt b 4, dl := BitVec.ofNat 3 (g 7 1), src := coordAt b 8
    mcAxis := BitVec.ofNat 2 (g 0x0B 1), mcDir := (g 0x0B 1).testBit 2, mc := (g 0x0B 1).testBit 3
    srcCore := BitVec.ofNat 7 (g 0x0D 1), msgTag := BitVec.ofNat 16 (g 0x0E 2), pktIndex := BitVec.ofNat 16 (g 0x10 2)
    pktCount := BitVec.ofNat 16 (g 0x12 2), addr := BitVec.ofNat 41 (g 0x14 6), notify := BitVec.ofNat 16 (g 0x1A 2)
    bucket := BitVec.ofNat 12 (g 0x1C 2), e := BitVec.ofNat 8 (g 0x1E 1), status := BitVec.ofNat 8 (g 0x1F 1)
    resBad := decide (64 ≤ b1) || decide (16384 ≤ g 2 2) || ([4, 5, 6, 8, 9, 10].any fun o => decide (64 ≤ g o 1))
      || decide (8 ≤ g 7 1) || decide (16 ≤ g 0x0B 1) || decide (g 0x0C 1 ≠ 0) || decide (128 ≤ g 0x0D 1)
      || decide (2 ^ 41 ≤ g 0x14 6) || decide (field (BitVec.ofNat 16 (g 0x1A 2)) 7 4 ≠ 0) || decide (4096 ≤ g 0x1C 2)
    payload := slice b 32 pl
    words := if carrier then (upto (len / 256)).map fun i => BitVec.ofNat 16 (g (32 + pl + 2 * i) 2) else [] }

/-- How many flits the packet takes whose first flit is `f`. -/
def flitsNeeded (f : BitVec 512) : Nat :=
  let b := slice (flitBytes f) 0 4
  flitsOf (BitVec.ofNat 4 (leAt b 0 1)) ((leAt b 1 1).testBit 1) (leAt b 2 2 % 16384)

/-! ## Link messages (R268) -/

def identMagic : Nat := 0x544C4944
def verdictMagic : Nat := 0x544C5644

def Ident.encode (m : Ident) : BitVec 512 :=
  flitBits (leBytes 4 m.magic.toNat ++ [m.vmin, m.vmax, m.port]
    ++ leBytes 1 (b2n m.coordValid + 2 * b2n m.strapFault + 4 * b2n m.rest)
    ++ leBytes 8 m.serial.toNat ++ leBytes 4 m.jobTag.toNat ++ [m.x, m.y, m.z, m.minv] ++ leBytes 2 m.lanes.toNat)

/-- The VERDICT message: reason and agreed version. -/
def verdictBits (reason ver : Nat) : BitVec 512 :=
  flitBits (leBytes 4 verdictMagic ++ leBytes 1 reason ++ leBytes 1 ver)

end Sys2Proof.Machine
end

