-- ==== Sys2Proof/Machine/RouteOps.lean ====
section
/-! DEFINITION. What the router's steps share: links and credits, productive ports (R298), hops and datelines (R301), the
route (R299, R300), drops (R302), answers (R292), the rate limiters (R308), messages of moves (R286 to R291). -/

namespace Sys2Proof.Machine

/-! ## Links and buffers -/

def State.link (s : State) (l : Nat) : LinkSt := mapGet {} s.links l
def State.modLink (s : State) (l : Nat) (f : LinkSt → LinkSt) : State := { s with links := mapMod {} s.links l f }

/-- Flits of the input buffer of a VC (R293). -/
def bufFlits (v : Nat) : Nat := if v < 2 then 8192 else if v = 2 then 14336 else 2048

def LinkSt.credits (k : LinkSt) (v : Nat) : Nat := nth 0 k.cred v

/-- A packet leaves the input buffer it came in by: its flits are owed as credits (R294). -/
def State.oweCredit (s : State) (x : RPkt) : State :=
  match x.inLink with
  | none => s
  | some l =>
    if x.paid then s
    else
      let v := x.p.vc.toNat
      s.modLink l fun k => { k with owe := setAt k.owe v (nth 0 k.owe v + x.p.flits) }

/-- The header of the packet that a link has received in part (R293, R317). -/
def LinkSt.part (k : LinkSt) : Option Packet := k.rxFlits.head?.map fun f => decodePacket [f]

/-- Flits of link `l`'s input buffer of VC `v` in use, those of a packet received in part included. -/
def State.occFlits (s : State) (l v : Nat) : Nat :=
  let k := s.link l
  ((s.rt.pkts.filter fun (x : RPkt) => x.inLink == some l && !x.paid && x.p.vc.toNat == v).map
      fun (x : RPkt) => x.p.flits).foldl (· + ·) 0
    + (match k.part with | none => 0 | some p => if p.vc.toNat = v then k.rxFlits.length else 0)

/-- Occupancy of a buffer in units of 1/256 (R317). -/
def State.occ (s : State) (l v : Nat) : Nat := min 255 (s.occFlits l v * 256 / bufFlits v)

/-- The word of RTE_OCC_i (R317). -/
def State.occWord (s : State) (l : Nat) : Nat :=
  (upto 4).foldl (fun w v => w + s.occ l v * 256 ^ v) 0

/-- Hold the peaks of link `l` (R317). -/
def State.notePeak (s : State) (l : Nat) : State :=
  let a := 0x900A0 + 4 * l
  let old := s.raw a
  s.setRaw a (BitVec.ofNat 32 ((upto 4).foldl
    (fun w v => w + max (field old (8 * v + 7) (8 * v)) (s.occ l v) * 256 ^ v) 0))

/-! ## DRAINED (R312, R317) -/

/-- Local messages awaiting completion (R286, R317). -/
def State.outstanding (s : State) : Nat :=
  (s.cores.map fun p =>
    (p.2.run.map fun q => match q.2 with | none => 0 | some m => m.msgs.length).foldl (· + ·) 0).foldl (· + ·) 0

/-- Packets in the router's buffers and ejection queues, those received in part included. -/
def State.bufPkts (s : State) : List Packet := (s.rt.pkts ++ s.rt.ejq).map (·.p) ++ (upto 6).filterMap fun l => (s.link l).part

/-- Whether some buffer holds a packet of VC `v`, for VC3 other than MGMT. -/
def State.vcBusy (s : State) (v : Nat) : Bool := s.bufPkts.any fun p => p.vc.toNat == v && (v != 3 || p.kind != kMgmt)

/-- DRAINED (R312). -/
def State.drained (s : State) : Bool :=
  (upto 4).all (fun v => !s.vcBusy v)
    && (upto 6).all (fun l => let k := s.link l; k.st != .active || (k.replay.isEmpty && k.txq.isEmpty))
    && s.outstanding == 0

/-! ## Ports (R298) -/

/-- Distance from position `x` to `y` along an axis of `n` in a direction. -/
def ringDist (n x y : Nat) (minus : Bool) : Nat := if minus then (x + n - y) % n else (y + n - x) % n

/-- Whether the direction is the way, or one of the two ways, from `c` to `d` on an axis of `n` (R298). -/
def dirOk (wrap : Bool) (n c d : Nat) (minus : Bool) : Bool :=
  if wrap then
    let p := (d + n - c) % n
    decide (p ≠ 0) && (if minus then decide (n ≤ 2 * p) else decide (2 * p ≤ n))
  else if minus then decide (d < c) else decide (c < d)

/-- Whether a link carries a packet: one in QUARANTINE carries MGMT alone (R270, R298). -/
def LinkSt.takes (k : LinkSt) (p : Packet) : Bool := k.st == .active || (k.st == .quarantine && p.kind == kMgmt)

/-- The peer coordinate of a link on its axis, from the latest IDENT (R280). -/
def LinkSt.peerPos (k : LinkSt) (a : Nat) : Option Nat :=
  k.peer.map fun i => if a = 0 then i.x.toNat else if a = 1 then i.y.toNat else i.z.toNat

/-- The link is ACTIVE and its peer lies on the way to `d` or at it, in the link's direction (R298). -/
def State.onWay (s : State) (l d : Nat) : Bool :=
  let a := l / 2
  let k := s.link l
  match k.peerPos a with
  | none => false
  | some q =>
    let n := s.axisLen a
    let m := decide (l % 2 = 1)
    decide (k.st = .active) && decide (ringDist n (s.pos a) q m ≤ ringDist n (s.pos a) d m)

/-- Whether the direction of link `l` is the way to `d` (R298). -/
def State.wayOf (s : State) (l : Nat) (d : Coord) : Bool :=
  let a := l / 2
  dirOk (s.img.wrap.getLsbD a) (s.axisLen a) (s.pos a) (d.get a) (decide (l % 2 = 1))

/-- Whether link `l` is productive towards `d` (R298). -/
def State.productive (s : State) (l : Nat) (d : Coord) : Bool := s.wayOf l d && s.onWay l (d.get (l / 2))

/-- Position from the dateline (R301). -/
def datePos (n dl c : Nat) : Nat := (c + n - dl % n) % n

/-- The packet as it leaves by link `l`: a bulk packet takes its VC and its dateline bit (R301). -/
def State.hop (s : State) (p : Packet) (l : Nat) : Packet :=
  if p.bulk then
    let a := l / 2
    if s.img.wrap.getLsbD a then
      let n := s.axisLen a
      let q := fun c => datePos n (s.rt.dl.get a) c
      let c' := ((s.link l).peerPos a).getD 0
      let cross := if l % 2 = 1 then decide (q (s.pos a) < q c') else decide (q c' < q (s.pos a))
      let set := p.dl.getLsbD a || cross
      { p with vc := if set then 1 else 0, dl := if cross then p.dl ||| BitVec.ofNat 3 (2 ^ a) else p.dl }
    else { p with vc := 0 }
  else p

/-! ## The route (R299, R300) -/

/-- Whether a coordinate lies in the job shape. -/
def State.inShape (s : State) (c : Coord) : Bool :=
  decide (c.x < s.img.shape.x) && decide (c.y < s.img.shape.y) && decide (c.z < s.img.shape.z)

/-- Destination number (R308). -/
def State.destNo (s : State) (c : Coord) : Nat := c.x + s.img.shape.x * (c.y + s.img.shape.y * c.z)

/-- The routing entry of a destination (R309, R310). -/
def State.entryOf (s : State) (n : Nat) : BitVec 16 := mapGet 0xF s.rt.tbl n

/-- The better of two adaptive ports: more credits, then the lower index (R299). -/
def bestPort : List (Nat × Nat) → Option Nat
  | [] => none
  | (l, c) :: r =>
    match bestPort r with
    | none => some l
    | some m => match r.find? fun (q : Nat × Nat) => q.1 == m with
      | none => some l
      | some q => if c < q.2 then some m else some l

/-- The adaptive port of a bulk packet (R299). -/
def State.adaptive (s : State) (p : Packet) : Option Nat :=
  let e := s.entryOf (s.destNo p.dst)
  bestPort ((upto 6).filterMap fun l =>
    let c := (s.link l).credits (s.hop p l).vc.toNat
    if e.getLsbD (1 + l / 2) && s.productive l p.dst && decide (p.flits + 130 ≤ c) then some (l, c) else none)

/-- The port of dimension order: the lowest remaining axis, + on a tie (R300). -/
def State.dimPort (s : State) (d : Coord) : Option Nat :=
  ((upto 3).find? fun a => decide (s.pos a ≠ d.get a)).map fun a =>
    linkOf a (!(dirOk (s.img.wrap.getLsbD a) (s.axisLen a) (s.pos a) (d.get a) false))

/-- Where a packet that is not ejected goes: link and packet, or none where it is undeliverable (R299 to R302). -/
def State.route (s : State) (p : Packet) : Option (Nat × Packet) :=
  if !(s.inShape p.dst) || !((s.entryOf (s.destNo p.dst)).getLsbD 0) || !((upto 6).any fun l => s.productive l p.dst) then none
  else
    let ad := if p.bulk && !p.esc then s.adaptive p else none
    match ad with
    | some l => some (l, s.hop p l)
    | none =>
      match s.dimPort p.dst with
      | none => none
      | some l =>
        if s.productive l p.dst then
          let q := s.hop p l
          some (l, if p.bulk then { q with esc := true } else q)
        else none

/-- The port of a packet of a collective, which its sequencer gives: the axis and direction of a multicast, the neighbour of
a chunk or scalar packet; none where it is undeliverable (R298, R302, R304, R305). -/
def State.viaPort (s : State) (l : Nat) (p : Packet) : Option (Nat × Packet) :=
  let way := if p.mc then s.onWay l (p.dst.get (l / 2)) else s.productive l p.dst
  if s.inShape p.dst && (s.entryOf (s.destNo p.dst)).getLsbD 0 && way then some (l, p) else none

/-- Where a packet that is not ejected goes (R299 to R305). -/
def State.portOf (s : State) (x : RPkt) : Option (Nat × Packet) :=
  match x.via with
  | some l => s.viaPort l x.p
  | none => s.route x.p

/-- Whether a port that the packet would take is changing its rate: it waits for it (R266, R303; log 53). -/
def State.awaitsShift (s : State) (x : RPkt) : Bool :=
  (upto 6).any fun l => (s.link l).st == .shifting
    && (match x.via with | some k => k == l | none => if x.p.bulk && !x.p.esc then s.wayOf l x.p.dst else s.dimPort x.p.dst == some l)

/-! ## Answers and drops -/

/-- Put a packet of this module into the router at half `h`. -/
def State.enter (s : State) (h : Nat) (p : Packet) : State :=
  { s with rt := { s.rt with pkts := s.rt.pkts ++ [{ p := p, half := h }] } }

/-- The answer to a request: SRC_CORE, MSG_TAG, PKT_INDEX and PKT_COUNT are copied (R284). -/
def State.answerTo (s : State) (p : Packet) (kind : BitVec 4) (status : Nat) (echo : Bool) : Packet :=
  { kind := kind, vc := 3, dst := p.src, src := s.img.coord, srcCore := p.srcCore, msgTag := p.msgTag, pktIndex := p.pktIndex
    pktCount := p.pktCount, status := BitVec.ofNat 8 status, echo := echo }

/-- ACK, or NACK with its status (R287, R292, R307). -/
def State.reply (s : State) (h : Nat) (p : Packet) (status : Nat) : State :=
  s.enter h (s.answerTo p (if status = 0 then kAck else kNack) status p.cmark)

/-- A refused PUT or GET packet: NACK and an ERROR event (R124, R292). -/
def State.refusePkt (s : State) (h : Nat) (p : Packet) (status : Nat) : State :=
  (s.reply h p status).post h 0x09 0 .error 3 (leBytes 1 status ++ leBytes 1 p.srcCore.toNat ++ coordBytes p.src)

/-- Count and report a dropped packet; half `h` found it (R302, R438). -/
def State.dropped (s : State) (h : Nat) (p : Packet) : State :=
  (s.bump (0x90050 + 4 * p.vc.toNat)).post h 0x09 0 .error 2
    (leBytes 1 p.vc.toNat ++ leBytes 1 p.kind.toNat ++ coordBytes p.dst ++ coordBytes p.src)

/-- Count and report an undeliverable packet; a request and a response are answered to their source (R302). -/
def State.undeliverable (s : State) (h : Nat) (p : Packet) : State :=
  let s1 := s.dropped h p
  if decide (p.kind.toNat < 3) || p.kind == kNotify then s1.enter h (s1.answerTo p kNack 4 false)
  else s1.colLost p

/-! ## Rate limiters (R308) -/

def limKey (h n : Nat) : Nat := h * 6144 + n

/-- A limiter brought up to date: its bucket has filled at RATE (400 GB/s is 400 B a nanosecond). -/
def Limiter.refill (k : Limiter) (now : Nat) : Limiter := { k with used := k.used - k.rate * 400 * (now - k.at_), at_ := now }

/-- Tokens of a packet in units of 2^-16 B. -/
def pktTokens (p : Packet) : Nat := p.flits * 64 * 65536

def bucketDepth : Nat := 65536 * 65536

/-- Whether the bucket holds tokens for a bulk packet to the given destination (R308). -/
def State.tokensOk (s : State) (h : Nat) (p : Packet) : Bool :=
  !p.bulk || !(s.inShape p.dst)
    || decide (((mapGet {} s.rt.lim (limKey h (s.destNo p.dst))).refill s.now).used + pktTokens p ≤ bucketDepth)

/-- Take the tokens of a bulk packet. -/
def State.takeTokens (s : State) (h : Nat) (p : Packet) : State :=
  if p.bulk && s.inShape p.dst then
    let n := limKey h (s.destNo p.dst)
    let lim := mapMod {} s.rt.lim n fun k =>
      let k1 := k.refill s.now
      { k1 with used := k1.used + pktTokens p }
    { s with rt := { s.rt with lim := lim } }
  else s

/-- An echo at a limiter: a decrease unless one took place within `hold`, never below RATE_MIN; an increase of the same cycle
does not count (R308). -/
def Limiter.echoed (k : Limiter) (now md hold rmin : Nat) : Limiter :=
  let k1 := k.refill now
  let free := match k.lastDec with | none => true | some t => decide (t + hold ≤ now)
  let k2 := match k1.inc with
    | some (t, old) => if t = now then { k1 with rate := old, inc := none } else k1
    | none => k1
  let r := max (k2.rate - k2.rate / 2 ^ md) rmin
  if free then { k2 with rate := r, lastDec := if r < k2.rate then some now else k2.lastDec, since := now }
  else { k2 with since := now }

/-- An echo reaches the limiter of half `h` for the destination that answered (R307, R308). -/
def State.echo (s : State) (h : Nat) (c : Coord) : State :=
  let s1 := s.bump 0x90064
  let cfg := s.raw 0x90034
  let rmin := field (s.raw 0x90038) 15 0
  let lim := mapMod {} s1.rt.lim (limKey h (s.destNo c)) fun k =>
    k.echoed s.now (field cfg 23 20) (field cfg 15 8 * 100) rmin
  { s1 with rt := { s1.rt with lim := lim } }

/-! ## Messages of moves (R286 to R291) -/

/-- Messages of a PUT or GET and their length: the runs written at the target, or read from it (R286). -/
def MoveDesc.msgs (d : MoveDesc) : Nat := if d.put then d.dstRuns.1 * d.cnt2 else d.cnt1 * d.cnt2
def MoveDesc.msgLen (d : MoveDesc) : Nat := if d.put then d.dstRuns.2 else d.len0

/-- The 41-bit address of `base + x` at the target. -/
def remoteAt (base : Nat) (x : Int) : BitVec 41 := BitVec.ofInt 41 ((base : Int) + x)

/-- Address at the target of byte `off` of run `k`. -/
def MoveDesc.remoteRun (d : MoveDesc) (k off : Nat) : BitVec 41 :=
  if d.put then
    let n := d.dstRuns.1
    remoteAt (moduleAddr d.dst + off) (((k / n : Nat) : Int) * d.dstr2 + ((k % n : Nat) : Int) * d.dstr1)
  else remoteAt (moduleAddr d.src + off) (((k / d.cnt1 : Nat) : Int) * d.sstr2 + ((k % d.cnt1 : Nat) : Int) * d.sstr1)

/-- The target of a PUT or GET. -/
def MoveDesc.remote (d : MoveDesc) : Coord := remoteCoord (if d.put then d.dst else d.src)

/-- PKT_MAX in bytes (R317). -/
def State.pktMax (s : State) : Nat := field (s.raw 0x90030) 3 0 * 1024

/-- The payload of a PUT: `n` bytes of run `k` from `off`; none where the source does not answer. -/
def State.putData (s : State) (c : Nat) (d : MoveDesc) (k off n : Nat) : State × Option (List Byte) × Bool :=
  if d.kind = kCopy then s.moveRead c (d.srcAt k + off) n
  else if d.kind = kFill then (s, some ((fillBytes d.src (off + n)).drop off), false)
  else
    let e := d.elem
    let r := d.dstRuns.1
    (upto (n / e)).foldl
      (fun (q : State × Option (List Byte) × Bool) i =>
        let m := q.1.moveRead c (d.srcAt (k / r * d.cnt1 + off / e + i) + k % r * e) e
        (m.1, (match q.2.1, m.2.1 with | some x, some y => some (x ++ y) | _, _ => none), q.2.2 || m.2.2))
      (s, some [], false)

/-! ### Descriptors that two packets hold (R195) -/

/-- `l` from `a` with the bytes of `d` from `b` laid over it. -/
def overlay (a : Nat) (l : List Byte) (b : Nat) (d : List Byte) : List Byte :=
  (upto l.length).map fun i => if b ≤ a + i ∧ a + i < b + d.length then nth 0 d (a + i - b) else nth 0 l i

/-- The bytes of a packet of the message that `p` names, of which address `x` lies in a descriptor that the packet holds in
part: both parts are those of one reading. -/
def State.descPart (s : State) (p : Packet) (a : Nat) (l : List Byte) (x : Nat) : State × List Byte :=
  let d := (x - s.descAt 0) / 192
  let b := s.descAt d
  if x < s.descAt 0 ∨ s.img.descCount ≤ d ∨ (a ≤ b ∧ b + 192 ≤ a + l.length) then (s, l)
  else
    let same := fun (y : Snap) => y.src == p.src && y.core == p.srcCore && y.tag == p.msgTag && y.desc == d
    let live := fun (y : Snap) => decide (s.now < y.at_ + 1000000 * field (s.raw 0x90030) 27 16)
    let rest := s.rt.snaps.filter fun y => !same y && live y
    match s.rt.snaps.find? fun y => same y && live y with
    | some y => ({ s with rt := { s.rt with snaps := rest } }, overlay a l b y.data)
    | none => ({ s with rt := { s.rt with snaps := rest ++ [⟨p.src, p.srcCore, p.msgTag, d, s.bytes b 192, s.now⟩] } }, l)

/-- The bytes that packet `p` carries of the `l` read at `a`. -/
def State.descWhole (s : State) (p : Packet) (a : Nat) (l : List Byte) : State × List Byte :=
  let q := if p.pktIndex = 0 then (s, l) else s.descPart p a l a
  if p.pktIndex + 1 = p.pktCount then q else q.1.descPart p a q.2 (a + l.length - 1)

/-- Message tag of a run (R286). -/
def msgTag (slot run : Nat) : BitVec 16 := BitVec.ofNat 16 (slot * 4096 + run % 4096)

/-- A move whose messages are all complete is done, unless it has a NOTIFY to send (R287). -/
def RunMove.settle (m : RunMove) : RunMove :=
  let d := m.op.d
  if m.run = d.msgs ∧ m.msgs = [] then
    if m.note || m.err || !(d.notify.getLsbD 15) then { m with done := true } else m
  else m

/-- The running PUT or GET of core `c` and its message that a packet answers (R284, R286). -/
def State.msgOf (s : State) (p : Packet) : Option (Nat × Nat × RunMove × Msg) :=
  let c := p.srcCore.toNat
  let slot := p.msgTag.toNat / 4096
  match (s.core c).slot slot with
  | none => none
  | some m =>
    match m.msgs.find? fun x => x.run % 4096 == p.msgTag.toNat % 4096 with
    | none => none
    | some x => some (c, slot, m, x)

/-- Whether an answer may be one to an earlier message of its tag: one that timed out, or one of a move that was stopped. -/
def State.older (s : State) (p : Packet) : Bool :=
  let k := s.core p.srcCore.toNat
  decide (0 < mapGet 0 k.gone p.msgTag.toNat) || decide (0 < mapGet 0 k.late p.msgTag.toNat)

/-- The message that an answer counts for. Nothing in an answer tells it from one to an earlier message of the same tag that
may still come: which it is, is a free choice (R291; log 54). -/
def State.answered (s : State) (p : Packet) : Option (Nat × Nat × RunMove × Msg) :=
  if s.older p && (Config.freeWord s.freeCtr).getLsbD 0 then none else s.msgOf p

/-- MSG_TIMEOUT (R291). -/
def State.msgLimit (s : State) : Nat := 1000000 * field (s.raw 0x90030) 27 16

/-- A move whose messages have timed out ends with an error status; their answers are late (R291). -/
def State.expire (s : State) (c slot : Nat) (m : RunMove) : State :=
  let n := (m.msgs.filter fun x => decide (x.sentAt + s.msgLimit < s.now)).length
  let m1 := { m with run := m.op.d.msgs, off := 0, msgs := [], err := true, done := true }
  ((s.bumpBy 0x9006C 32 n).modCore c fun k => { k with late := addTags k.late (m.awaited slot) }).setSlot c slot (some m1)

/-- Count an answer of message `x`; a complete message leaves the list (R287, R288). -/
def RunMove.count (m : RunMove) (x : Msg) (err : Bool) : RunMove :=
  let y := { x with answered := x.answered + 1 }
  let ms := if y.answered = y.count then m.msgs.filter fun z => z.run ≠ x.run
    else m.msgs.map fun z => if z.run = x.run then y else z
  { m with msgs := ms, err := m.err || err }.settle

end Sys2Proof.Machine
end

