-- ==== Sys2Proof/Machine/Router.lean ====
section
/-! DEFINITION. The router: injection, routing and hops (R293 to R308), packets at their target and answers at their source
(R286 to R292, R307), timers of messages and limiters (R288, R291, R308). -/

namespace Sys2Proof.Machine

/-! ## Injection (R286 to R288, R308) -/

/-- The next packet of a running PUT or GET, without its payload; none where there is none to send now. -/
def State.nextPkt (s : State) (c slot : Nat) (m : RunMove) : Option Packet :=
  let d := m.op.d
  if !(d.put || d.get) || m.done || m.stopped || !(s.moveRuns c) then none
  else if m.run < d.msgs then
    if m.off = 0 ∧ (s.rt.quiesced = true ∨ 1024 ≤ m.msgs.length) then none
    else
      let pmax := if m.off = 0 then s.pktMax else ((m.msgs.find? fun x => x.run == m.run).map (·.pmax)).getD s.pktMax
      let n := min pmax (d.msgLen - m.off)
      some
        { kind := if d.put then kPutData else kGetReq, vc := if d.vc = 0 then 0 else 2, last := decide (m.off + n = d.msgLen)
          notifyEn := d.notify.getLsbD 15, len := n, dst := d.remote, src := s.img.coord, srcCore := BitVec.ofNat 7 c
          msgTag := msgTag slot m.run, pktIndex := BitVec.ofNat 16 (m.off / pmax)
          pktCount := BitVec.ofNat 16 (ceilDiv d.msgLen pmax), addr := d.remoteRun m.run m.off
          notify := if d.put then d.notify else 0 }
  else if m.msgs = [] ∧ m.note = false ∧ m.err = false ∧ d.notify.getLsbD 15 = true then
    some
      { kind := kNotify, vc := 3, last := true, notifyEn := true, dst := d.remote, src := s.img.coord
        srcCore := BitVec.ofNat 7 c, msgTag := msgTag slot m.run, pktCount := 1, notify := d.notify }
  else none

/-- The moves of half `h` with a packet to send now: core, slot, move and packet. -/
def State.injectable (s : State) (h : Nat) : Option (Nat × Nat × RunMove × Packet) :=
  (seqFrom (48 * h) 48).findSome? fun c =>
    (upto 16).findSome? fun i =>
      match (s.core c).slot i with
      | none => none
      | some m =>
        match s.nextPkt c i m with
        | none => none
        | some p => if s.tokensOk h p then some (c, i, m, p) else none

/-- Send packet `p` of move `m`: the message begins with its first packet. A source that does not answer leaves its packet
unsent and counted as refused (R172). -/
def State.sendPkt (s : State) (h c slot : Nat) (m : RunMove) (p : Packet) : State :=
  let d := m.op.d
  if p.kind = kNotify then
    (s.enter h p).setSlot c slot (some { m with note := true, msgs := [{ run := m.run, count := 1, sentAt := s.now }] })
  else
    let m1 :=
      if m.off = 0 then
        { m with msgs := m.msgs ++ [{ run := m.run, pmax := s.pktMax, count := p.pktCount.toNat, sentAt := s.now }] }
      else m
    let x := (m1.msgs.find? fun y => y.run == m.run).getD {}
    let off := m.off + p.len
    let m2 := if off < d.msgLen then { m1 with off := off } else { m1 with run := m1.run + 1, off := 0 }
    if d.get then ((s.takeTokens h p).enter h p).setSlot c slot (some m2)
    else
      let q := s.putData c d m.run m.off p.len
      match q.2.1 with
      | none => q.1.setSlot c slot (some (m2.count x true))
      | some l =>
        let w := if d.kind = kCopy then q.1.descWhole p (d.srcAt m.run + m.off) l else (q.1, l)
        ((w.1.takeTokens h p).enter h { p with payload := w.2 }).setSlot c slot (some { m2 with err := m2.err || q.2.2 })

/-- PACKET_INJECT: the next packet of a move of half `h` enters the router (R286, R308). -/
def execPacketInject (h : HalfId) (s : State) : Host.Outcome State Fault Refusal :=
  match s.injectable h with
  | none => .next s
  | some (c, i, m, p) => .next (s.sendPkt h c i m p)

/-! ## Routing (R285, R298 to R306) -/

/-- Take packet `i` out of the router's buffers, returning its credits. -/
def State.leave (s : State) (i : Nat) (x : RPkt) : State :=
  { s with rt := { s.rt with pkts := delAt s.rt.pkts i } }.oweCredit x

/-- Drop a bad packet, found at half `h` (R285, R438). -/
def State.dropBad (s : State) (h : Nat) (p : Packet) : State :=
  (s.bump 0x90074).post h 0x09 0 .error 1 (leBytes 1 p.kind.toNat ++ leBytes 1 p.vc.toNat ++ coordBytes p.src)

/-- Whether a packet leaves the fabric here: MGMT and multicasts from a link, and those addressed to the own coordinate. -/
def State.ejects (s : State) (x : RPkt) : Bool :=
  (x.inLink.isSome && x.via.isNone && (x.p.kind == kMgmt || x.p.mc)) || (s.img.coordValid && decide (x.p.dst = s.img.coord))

/-- The half whose interface or unit takes a packet of a collective. -/
def State.colHalf (s : State) (x : RPkt) : Nat :=
  if x.p.kind = kScalar then b2n (chainFrom s.img.coord x.p) else (x.inLink.getD 0) % 2

/-- The target half of a GET_REQ. -/
def State.getHalf (s : State) (p : Packet) : Nat := ((keyOf s.regions p.addr.toNat).map halfOfKey).getD 0

/-- GET_REQs queued at half `h`. -/
def State.getQueue (s : State) (h : Nat) : Nat :=
  (s.rt.ejq.filter fun (x : RPkt) => x.p.kind == kGetReq && s.getHalf x.p == h).length

/-- An arriving packet of a collective that nothing here can take: undeliverable, and lost for its run (R302, R315, R335). -/
def State.colRefused (s : State) (x : RPkt) : State :=
  let s1 := s.dropped x.half x.p
  match s1.runOf x.p with
  | none => s1
  | some r => s1.colMiss r (s1.coverOf r x.p)

/-- Whether a scalar packet may go to its unit's hold buffer: it has room, and none waits in the ejection queue (R328). -/
def State.holds (s : State) (p : Packet) : Bool :=
  let chain := chainFrom s.img.coord p
  decide (s.holdBytes chain + p.len ≤ 131072) && !(s.rt.ejq.any fun y => y.p.kind == kScalar && chainFrom s.img.coord y.p == chain)

/-- Eject a packet: into a hold buffer, or the ejection queue, with a mark where the queue is full beyond CM_THRESH
(R306, R315, R316, R328). -/
def State.eject (s : State) (x : RPkt) : State :=
  let p := x.p
  if p.col && (decide (s.pstate = .rest) || (s.half (s.colHalf x)).inReset) then s.colRefused x
  else if p.kind == kGetReq && decide (1024 ≤ s.getQueue (s.getHalf p)) then s.reply x.half p 5
  else if p.kind == kScalar && s.holds p then
    { s with col := { s.col with hold := s.col.hold ++ [x] } }
  else
    let used := ((s.rt.ejq.filter fun (y : RPkt) => y.half == x.half).map fun (y : RPkt) => y.p.flits).foldl (· + ·) 0
    let mark := p.bulk && !p.cmark && decide (field (s.raw 0x90034) 31 24 * Config.ejectDepth < used * 256)
    let s1 := if mark then s.bump 0x90060 else s
    { s1 with rt := { s1.rt with ejq := s1.rt.ejq ++ [{ x with p := { p with cmark := p.cmark || mark }, out := none, at_ := s.now }] } }

/-- The receivers that remain of a multicast whose next hop would pass its last module: all but the one that the drop itself
counts are counted as undeliverable (R302, R305). -/
def State.passedMc (s : State) (x : RPkt) : State :=
  match x.via with
  | none => s
  | some l =>
    let n := ringDist (s.axisLen (l / 2)) (s.pos (l / 2)) (x.p.dst.get (l / 2)) (decide (l % 2 = 1))
    if x.p.mc && decide ((s.link l).st = .active) then s.bumpBy (0x90050 + 4 * x.p.vc.toNat) 32 (n - 1) else s

/-- Route packet `i` afresh. -/
def State.routeNow (s : State) (i : Nat) (x : RPkt) : State :=
  if x.p.bad then (s.leave i x).dropBad x.half x.p
  else if s.ejects x then (s.leave i x).eject x
  else
    match s.portOf x with
    | some o => { s with rt := { s.rt with pkts := setAt s.rt.pkts i { x with out := some o } } }
    | none =>
      if s.awaitsShift x then { s with rt := { s.rt with pkts := setAt s.rt.pkts i x } }
      else ((s.leave i x).passedMc x).undeliverable x.half x.p

/-- PACKET_ROUTE: packet `i` is ejected, takes a port, or is dropped. One that waits for its hop is routed again, and keeps
ESC once it is set; one whose link is shifting waits (R298 to R305). -/
def execPacketRoute (i : Nat) (s : State) : Host.Outcome State Fault Refusal :=
  match s.rt.pkts[i]? with
  | none => .next s
  | some x =>
    match x.out with
    | none => .next (s.routeNow i x)
    | some (l, p) =>
      if (s.link l).st = .shifting then .next s
      else .next (s.routeNow i { x with p := { x.p with esc := x.p.esc || p.esc }, out := none })

/-- Whether the downstream buffer of link `l` has the credits that a packet needs (R294, R296, R297). -/
def State.creditOk (s : State) (x : RPkt) (l : Nat) (p : Packet) : Bool :=
  let c := (s.link l).credits p.vc.toNat
  let f := p.flits
  let entering := if p.mc then decide (p.src = s.img.coord) else match x.inLink with | none => true | some j => decide (j / 2 ≠ l / 2)
  if p.bulk then decide ((if p.esc then f else f + 130) ≤ c)
  else if entering then decide ((if p.vc = 2 then 260 else 66) ≤ c)
  else decide (f ≤ c)

/-- Whether the port that a packet was given is still one that it may take (R270, R298, R304). -/
def State.mayTake (s : State) (l : Nat) (p : Packet) : Bool :=
  (s.link l).takes p && (p.kind == kMgmt || (if p.mc then s.onWay l (p.dst.get (l / 2)) else s.productive l p.dst))

/-- Whether a packet can take its hop now (R294). One for the other half's link crosses the bridge (R13, R186). -/
def State.canHop (s : State) (x : RPkt) : Bool :=
  match x.out with
  | none => false
  | some (l, p) => s.mayTake l p && s.creditOk x l p && (decide (l % 2 = x.half) || s.bridge.dataUp)

/-- Whether a packet of VC `v` is ready for link `l`. -/
def State.readyVc (s : State) (l v : Nat) : Bool :=
  s.rt.pkts.any fun y => match y.out with | none => false | some (k, q) => k == l && q.vc.toNat == v && s.canHop y

/-- A VC3 packet ready for link `l` goes first (R295). -/
def State.vc3First (s : State) (l : Nat) : Bool := s.readyVc l 3

/-! The weighted round robin of VC2, VC0 and VC1 (R295): a VC in its turn sends whole packets while flits of its quantum are
left; what its last packet takes beyond them counts against its next turn (log 55). -/

/-- Flits of a turn: weights 2, 1 and 1 times the largest packet. -/
def quantum (v : Nat) : Nat := if v = 2 then 260 else 130

/-- The order of turns. -/
def nextVc (v : Nat) : Nat := if v = 2 then 0 else if v = 0 then 1 else 2

/-- The VC whose turn it is on link `l`, and the flits left to it; none where no packet of the three is ready. -/
def State.turnOf (s : State) (l : Nat) : Option (Nat × Nat) :=
  let k := s.link l
  if 0 < k.left ∧ s.readyVc l k.turn then some (k.turn, k.left)
  else
    let a := nextVc k.turn
    let b := nextVc a
    ([a, b, k.turn].find? fun v => s.readyVc l v).map fun v => (v, quantum v - nth 0 k.debt v)

/-- A packet of `f` flits of VC `v` has gone in its turn. -/
def LinkSt.served (k : LinkSt) (v left f : Nat) : LinkSt :=
  { k with turn := v, left := left - f, debt := setAt k.debt v (f - left) }

/-- The flits of a packet; its last one names it, its first the packet in the router. -/
def Packet.txFlits (p : Packet) (x : RPkt) : List TxFlit :=
  let fs := p.encode
  (upto fs.length).map fun i =>
    { f := ⟨.data, nth 0 fs i⟩, ends := if i + 1 = fs.length then some p else none
      begins := if i = 0 then some { x with p := { x.p with cmark := p.cmark }, out := none, paid := true } else none }

/-- PACKET_ADVANCE: packet `i` takes its hop in its turn, marked where the downstream buffer is full beyond CM_THRESH (R294 to
R297, R306). -/
def execPacketAdvance (i : Nat) (s : State) : Host.Outcome State Fault Refusal :=
  match s.rt.pkts[i]? with
  | none => .next s
  | some x =>
    match x.out with
    | none => .next s
    | some (l, p) =>
      let v := p.vc.toNat
      let turn := if p.vc = 3 then some (v, 0) else s.turnOf l
      if !(s.canHop x) || (p.vc != 3 && s.vc3First l) || turn.map (·.1) != some v then .next s
      else
        let left := (turn.getD (0, 0)).2
        let k := s.link l
        let mark := p.bulk && !p.cmark && decide (field (s.raw 0x90034) 31 24 * bufFlits v < (bufFlits v - k.credits v) * 256)
        let q := { p with cmark := p.cmark || mark }
        let s1 := ((s.leave i x).cross x.half (l % 2) 0 (64 * p.flits)).modLink l fun k =>
          let k1 := if p.vc = 3 then k else k.served v left p.flits
          { k1 with cred := setAt k.cred v (k.credits v - p.flits), txq := k.txq ++ q.txFlits x }
        .next (if mark then s1.bump 0x90060 else s1)

/-! ## At the target (R124, R287, R288, R292, R315) -/

/-- Take from the ejection queue the first packet of a kind that `ok` allows and that heads its queue (R328). -/
def State.takeEj (s : State) (kind : BitVec 4) (ok : RPkt → Bool) : Option (RPkt × State) :=
  s.ejFirst fun x => x.p.kind == kind && ok x

/-- Why a request of `n` bytes at `a` arriving at half `h` is refused before any byte: its status, 0 for none (R292). -/
def State.targetFault (s : State) (h a n : Nat) : Nat :=
  if s.pstate = .rest then 6
  else if !(s.oneRegion (a, max n 1)) then 1
  else if s.accRange h a n ≠ .ok then 7
  else 0

/-- PUT_DATA_RX: the packet is checked and written as one request, and answered (R124, R287, R292, R489). One that would
write held descriptors waits (R195). -/
def execPutDataRx (s : State) : Host.Outcome State Fault Refusal :=
  match s.takeEj kPutData fun x => !(s.heldByCommit x.p.addr.toNat x.p.len) with
  | none => .next s
  | some (x, s0) =>
    let p := x.p
    let a := p.addr.toNat
    let e := s.targetFault x.half a p.len
    if e ≠ 0 then .next (s0.refusePkt x.half p e)
    else if s.touchesProg a p.len || s.closedReq a p.len then .next (s0.refusePkt x.half p 2)
    else
      let w := (s0.cross x.half (1 - x.half) 2 (s.farBytes x.half a p.len)).writeAll a p.payload 0x7F
      .next (if w.2 then w.1.refusePkt x.half p 3 else w.1.reply x.half p 0)

/-- GET_REQ_RX: the target answers with the bytes, or NACK (R288, R292). -/
def execGetReqRx (s : State) : Host.Outcome State Fault Refusal :=
  match s.takeEj kGetReq fun _ => true with
  | none => .next s
  | some (x, s0) =>
    let p := x.p
    let a := p.addr.toNat
    let e := s.targetFault x.half a p.len
    if e ≠ 0 then .next (s0.refusePkt x.half p e)
    else
      let r := (s0.cross (1 - x.half) x.half 2 (s.farBytes x.half a p.len)).read a p.len 0 0x7F
      if r.2.2 then .next (r.1.refusePkt x.half p 3)
      else
        let w := r.1.descWhole p a r.2.1
        let q : Packet := { s.answerTo p kGetResp 0 false with
          vc := if p.bulk then 0 else 2, len := p.len, payload := w.2, last := decide (p.pktIndex + 1 = p.pktCount) }
        .next (w.1.enter x.half q)

/-- NOTIFY_RX: the receive counter rises, and an ACK answers (R124, R128, R287). A core that does not exist or cannot be
reached is refused. -/
def execNotifyRx (s : State) : Host.Outcome State Fault Refusal :=
  match s.takeEj kNotify fun _ => true with
  | none => .next s
  | some (x, s0) =>
    let p := x.p
    let c := field p.notify 14 8
    if 96 ≤ c then .next (s0.refusePkt x.half p 1)
    else if (halfOf c ≠ x.half ∧ s.bridge.dataUp = false) ∨ (s.half (halfOf c)).inReset then .next (s0.refusePkt x.half p 7)
    else .next ((s0.addRc c (field p.notify 3 0) 1).reply x.half p 0)

/-- MGMT_RX: a packet of a neighbour reaches the management controller; the manual gives it no effect there (R284). -/
def execMgmtRx (l : LinkId) (s : State) : Host.Outcome State Fault Refusal :=
  match s.takeEj kMgmt fun x => x.inLink == some l.val with
  | none => .next s
  | some (_, s0) => .next s0

/-! ## At the source (R287, R288, R291, R307) -/

/-- Whether an answer can reach its core: the bridge carries it to the other half. -/
def State.reaches (s : State) (x : RPkt) : Bool := decide (halfOf x.p.srcCore.toNat = x.half) || s.bridge.dataUp

/-- An echo of an answer or of a marked GET_RESP (R307). -/
def State.echoOf (s : State) (p : Packet) (on : Bool) : State :=
  if on && s.inShape p.src then s.echo (halfOf p.srcCore.toNat) p.src else s

/-- An answer that no message awaits: one of a move that a core reset discarded, or a late one (R139, R140, R291). -/
def State.strayAnswer (s : State) (p : Packet) : State :=
  let c := p.srcCore.toNat
  let k := s.core c
  if 0 < mapGet 0 k.gone p.msgTag.toNat then
    let s1 := (s.modCore c fun k => { k with gone := mapMod 0 k.gone p.msgTag.toNat (· - 1) }).bumpFree 1
    if p.kind = kGetResp ∧ k.faultState = false then s1.bumpBy (aCore c 0x028) 16 1 else s1
  else if 0 < mapGet 0 k.late p.msgTag.toNat then
    ((s.modCore c fun k => { k with late := mapMod 0 k.late p.msgTag.toNat (· - 1) }).bumpFree 1).bump 0x90070
  else s.bump 0x90070

/-- An answer at its source: it counts by `f` for its message, or it is one that no message awaits; one that came after
MSG_TIMEOUT finds its move ended (R291, R316). -/
def State.takeAnswer (s : State) (x : RPkt) (f : Nat → Nat → RunMove → Msg → State) : State :=
  match s.answered x.p with
  | none => s.strayAnswer x.p
  | some (c, slot, m, g) =>
    if g.sentAt + s.msgLimit < x.at_ then (s.expire c slot m).strayAnswer x.p
    else if s.older x.p then (f c slot m g).bumpFree 1 else f c slot m g

/-- ACK_RX: the answer is counted; the move goes on to its NOTIFY or is done (R287, R307). -/
def execAckRx (s : State) : Host.Outcome State Fault Refusal :=
  match s.takeEj kAck s.reaches with
  | none => .next s
  | some (x, s0) =>
    let s1 := s0.echoOf x.p x.p.echo
    .next (s1.takeAnswer x fun c slot m g => s1.setSlot c slot (some (m.count g false)))

/-- NACK_RX: the answer is counted with an error; a GET refused BUSY is sent again later (R287, R288). -/
def execNackRx (s : State) : Host.Outcome State Fault Refusal :=
  match s.takeEj kNack s.reaches with
  | none => .next s
  | some (x, s0) =>
    let s1 := (s0.bump 0x90068).echoOf x.p x.p.echo
    .next (s1.takeAnswer x fun c slot m g =>
      if x.p.status = 5 ∧ m.op.d.get then
        let due := s.now + 1000 * field (s.raw 0x90030) 15 8
        let ms := m.msgs.map fun z => if z.run = g.run then { z with retry := z.retry ++ [(x.p.pktIndex.toNat, due)] } else z
        s1.setSlot c slot (some { m with msgs := ms })
      else s1.setSlot c slot (some (m.count g true)))

/-- Write a GET_RESP's bytes to the place of run `k`, byte `off` (R118, R120, R288). -/
def State.getWrite (s : State) (c : Nat) (d : MoveDesc) (k off : Nat) (l : List Byte) : State × Bool :=
  if d.kind = kTrans then
    let e := d.elem
    steps (fun q i => q.moveWrite c (d.dstAt (k / d.cnt1 * d.dstRuns.1 + off / e + i) + k % d.cnt1 * e) (slice l (i * e) e))
      s (upto (l.length / e))
  else s.moveWrite c (d.dstAt k + off) l

/-- GET_RESP_RX: the bytes are written where the descriptor says, and the answer counted (R288, R307). -/
def execGetRespRx (s : State) : Host.Outcome State Fault Refusal :=
  let held := fun (x : RPkt) =>
    match s.msgOf x.p with
    | none => false
    | some (_, _, m, _) => s.heldByCommit m.op.d.dstSpan.1 m.op.d.dstSpan.2
  match s.takeEj kGetResp fun x => s.reaches x && !(held x) with
  | none => .next s
  | some (x, s0) =>
    let s1 := s0.echoOf x.p x.p.cmark
    .next (s1.takeAnswer x fun c slot m g =>
      let w := s1.getWrite c m.op.d g.run (x.p.pktIndex.toNat * g.pmax) x.p.payload
      w.1.setSlot c slot (some (m.count g w.2)))

/-! ## Timers -/

/-- Whether an answer to message `g` of a core came in time and waits in the ejection queue (R316). -/
def State.inTime (s : State) (c slot : Nat) (g : Msg) : Bool :=
  s.rt.ejq.any fun x =>
    (x.p.kind == kAck || x.p.kind == kNack || x.p.kind == kGetResp) && x.p.srcCore.toNat == c
      && x.p.msgTag == msgTag slot g.run && decide (x.at_ ≤ g.sentAt + s.msgLimit) && s.reaches x

/-- MSG_TIMEOUT: a message not complete in time completes its move with an error status. An answer that came by the cycle of
expiry counts first (R291, R316). -/
def execMsgTimeout (c : CoreId) (slot : SlotId) (s : State) : Host.Outcome State Fault Refusal :=
  match (s.core c).slot slot with
  | none => .next s
  | some m =>
    let due := m.msgs.filter fun x => decide (x.sentAt + s.msgLimit < s.now)
    if m.stopped || !(due.any fun g => !s.inTime c slot g) then .next s else .next (s.expire c slot m)

/-- The first GET_REQ of a move that falls due again: its message and packet index. -/
def RunMove.due (m : RunMove) (now : Nat) : Option (Msg × Nat) :=
  m.msgs.findSome? fun x => (x.retry.find? fun r => decide (r.2 ≤ now)).map fun r => (x, r.1)

/-- GET_RETRY_TIMER: a GET_REQ refused BUSY is sent again (R288). -/
def execGetRetryTimer (c : CoreId) (slot : SlotId) (s : State) : Host.Outcome State Fault Refusal :=
  match (s.core c).slot slot with
  | none => .next s
  | some m =>
    match m.due s.now with
    | none => .next s
    | some (x, i) =>
      let d := m.op.d
      let off := i * x.pmax
      let n := min x.pmax (d.msgLen - off)
      let p : Packet :=
        { kind := kGetReq, vc := if d.vc = 0 then 0 else 2, last := decide (i + 1 = x.count), len := n, dst := d.remote
          src := s.img.coord, srcCore := BitVec.ofNat 7 c, msgTag := msgTag slot x.run, pktIndex := BitVec.ofNat 16 i
          pktCount := BitVec.ofNat 16 x.count, addr := d.remoteRun x.run off }
      if m.stopped || !(s.moveRuns c) || !(s.tokensOk (halfOf c) p) then .next s
      else
        let ms := m.msgs.map fun z => if z.run = x.run then { z with retry := z.retry.filter fun r => r.1 ≠ i } else z
        .next (((s.takeTokens (halfOf c) p).enter (halfOf c) p).setSlot c slot (some { m with msgs := ms }))

/-- RATE_INCREASE_TIMER: AI_PERIOD after the later of the last echo and the last increase, the rate rises (R308). -/
def execRateIncreaseTimer (h : HalfId) (dest : Fin 6144) (s : State) : Host.Outcome State Fault Refusal :=
  let k := mapGet {} s.rt.lim (limKey h dest)
  if k.rate < 65536 ∧ k.since + 1000 * field (s.raw 0x90034) 7 0 ≤ s.now then
    let k1 := k.refill s.now
    let k2 := { k1 with rate := min (k.rate + field (s.raw 0x90038) 31 16) 65536, since := s.now, inc := some (s.now, k.rate) }
    .next { s with rt := { s.rt with lim := mapSet {} s.rt.lim (limKey h dest) k2 } }
  else .next s

end Sys2Proof.Machine
end

