-- ==== Sys2Proof/Machine/ClkOps.lean ====
section
/-! DEFINITION. The clocks: the root PLLs and their references (R400 to R408), branch clocks (R413), the gate tree (R410,
R411), the frequency meter (R414), and the rows of their events. -/

namespace Sys2Proof.Machine

def State.modClk (s : State) (f : ClkSt → ClkSt) : State := { s with clk := f s.clk }

/-! ## References and slews (R401 to R407) -/

/-- Whether a source is present: the crystal, the external reference, or the clock of a link that is ACTIVE (R407). -/
def State.srcPresent (s : State) (source l : Nat) : Bool :=
  if source = 0 then s.clk.xtalOk else if source = 1 then s.clk.refclkOk else decide ((s.link l).st = .active)

/-- Whether the selection is in use with the root PLLs at MULT 228 (R407). -/
def ClkSt.inUse (k : ClkSt) (source l : Nat) : Bool :=
  decide (k.sel.source = source) && (decide (source ≠ 2) || decide (k.sel.link = l)) && decide (k.input = source)
    && decide (k.mult = 228) && !k.slewing

/-- Switch the input to the selection and slew to MULT 228; the flags clear at the end (R407). -/
def ClkSt.switch (k : ClkSt) (x : ClkSel) : ClkSt :=
  { k with sel := x, input := x.source, goal := 228, slewing := true, clear := true, deferred := none, held := none, fmSteady := false }

/-- Apply a selection now, or hold it until its link is ACTIVE (R407). -/
def State.applySel (s : State) (x : ClkSel) : State :=
  if x.source = 2 ∧ (s.link x.link).st ≠ .active then
    s.modClk fun k => { k with held := some x, deferred := none, sel := { k.sel with fallback := x.fallback } }
  else if s.clk.inUse x.source x.link then
    s.modClk fun k => { k with held := none, deferred := none, sel := { k.sel with fallback := x.fallback } }
  else s.modClk fun k => k.switch x

/-- A selection of an image: deferred while a switch is in progress (R407, R415). -/
def State.imageSel (s : State) (x : ClkSel) : State :=
  if s.clk.slewing then s.modClk fun k => { k with deferred := some x, held := none } else s.applySel x

/-- A link becomes ACTIVE: a selection held for it applies (R407). -/
def State.linkClock (s : State) (l : Nat) : State :=
  match s.clk.held with
  | none => s
  | some x =>
    if x.link ≠ l then s
    else if s.clk.slewing then s.modClk fun k => { k with deferred := some x, held := none }
    else s.modClk fun k => k.switch x

/-- The multiplier that the PLLs have reached when something meets them: between the ends of a slew the manual leaves it
open (R415; log 4). -/
def State.reached (s : State) : Nat × State :=
  if s.clk.slewing ∧ s.clk.goal ≠ s.clk.mult then
    (57 + (Config.freeWord s.freeCtr).toNat % 172, s.bumpFree 1)
  else (s.clk.mult, s)

/-- The reference is lost: AON becomes the input and the PLLs slew to MULT 57 (R406). -/
def State.coast (s : State) : State :=
  let r := s.reached
  let s1 := r.2.modClk fun k =>
    { k with
      mult := r.1, input := 3, goal := 57, slewing := true, clear := false, refLost := true, fbAct := false, boot := false, fmSteady := false }
  (s1.bump 0x30040).post 0 0x03 0 .error 2 (leBytes 1 s.clk.sel.source)

/-- The PLLs fall back to the crystal with MULT unchanged (R405). A loss of REF that a switch was clearing is over. -/
def State.fallBack (s : State) : State :=
  let r := s.reached
  let s1 := r.2.modClk fun k =>
    { k with
      mult := r.1, input := 0, goal := r.1, slewing := true, clear := false, fbAct := true, refLost := false, fmSteady := false }
  (s1.bump 0x30040).post 0 0x03 0 .warning 1 (leBytes 1 s.clk.sel.source ++ leBytes 1 s.clk.sel.link)

/-- The source that the PLLs run on fails: they fall back to the crystal or coast (R404 to R406, R415). -/
def State.sourceLost (s : State) : State :=
  let i := s.clk.input
  let s1 := s.modClk fun k => { k with xtalOk := k.xtalOk && i != 0, refclkOk := k.refclkOk && i != 1 }
  if s1.clk.sel.fallback && s1.clk.xtalOk && i != 0 then s1.fallBack else s1.coast

/-- Whether the PLLs run on the clock of link `l`. -/
def State.recovers (s : State) (l : Nat) : Bool := s.clk.input == 2 && s.clk.sel.link == l

/-- Link `l` leaves ACTIVE and SHIFTING: a source recovered from it fails (R404). -/
def State.lostLink (s : State) (l : Nat) : State := if s.recovers l then s.sourceLost else s

/-- Whether the PLLs hold over: the link they recover from is SHIFTING since an earlier cycle and for no longer than 100 µs
(R404, R415). -/
def State.holdover (s : State) : Bool :=
  let k := s.link s.clk.sel.link
  s.clk.input == 2 && k.st == .shifting && decide (k.since < s.now) && decide (s.now ≤ k.since + 100000)

/-- XTAL_STABLE: at boot the PLLs take the crystal and slew to MULT 228 (R403). -/
def execXtalStable (s : State) : Host.Outcome State Fault Refusal :=
  if s.boot.released && s.clk.boot then
    .next (s.modClk fun k => { k.switch {} with boot := false, xtalOk := true, clear := false })
  else .next s

/-- XTAL_TIMEOUT: the crystal is not stable within 50 ms of release and the module coasts (R403, R406). -/
def execXtalTimeout (s : State) : Host.Outcome State Fault Refusal :=
  if s.boot.released && s.clk.boot && decide (s.boot.at_ + 50000000 ≤ s.now) then
    let s1 := s.modClk fun k => { k with boot := false, refLost := true, locked := true }
    .next ((s1.bump 0x30040).post 0 0x03 0 .error 2 (leBytes 1 0))
  else .next s

/-- SOURCE_FAIL: the reference in use fails; a holdover is no failure (R404 to R406, R415). -/
def execSourceFail (s : State) : Host.Outcome State Fault Refusal :=
  if s.boot.released && decide (s.clk.input < 3) && !s.holdover then .next s.sourceLost else .next s

/-- SLEW_DONE: a slew or input switch ends; the flags of R407 clear, and a deferred selection applies (R402, R407). -/
def execSlewDone (s : State) : Host.Outcome State Fault Refusal :=
  if s.clk.slewing then
    let c := s.clk.clear
    let s1 := (s.modClk fun k =>
      { k with
        mult := k.goal, slewing := false, clear := false, locked := true, refLost := k.refLost && !c, fbAct := k.fbAct && !c
        fmSteady := false }).bump 0x30044
    match s1.clk.deferred with
    | none => .next s1
    | some x => .next ((s1.modClk fun k => { k with deferred := none }).applySel x)
  else .next s

/-- REFERENCE_PRESENCE_CHANGE: a reference that is not the input of the PLLs comes or goes (R404). -/
def execReferencePresenceChange (k : RefSrc) (present : Bool) (s : State) : Host.Outcome State Fault Refusal :=
  match k with
  | .xtal => .next (if s.boot.released && !s.clk.boot && s.clk.input != 0 then s.modClk fun c => { c with xtalOk := present } else s)
  | .refclk => .next (if s.boot.released && s.clk.input != 1 then s.modClk fun c => { c with refclkOk := present } else s)
  | .link => .next s

/-- PLL_LOCK_LOSS: PLL_FAULT is set and both root PLLs coast, unless they do so already (R406, R413). -/
def execPllLockLoss (h : HalfId) (s : State) : Host.Outcome State Fault Refusal :=
  if s.boot.released then
    let s1 := (s.modClk fun k => { k with pllFault := true, locked := false }).post h 0x03 0 .fatal 4 (leBytes 1 h)
    .next (if s.clk.refLost then s1 else s1.coast)
  else .next s

/-! ## The gate tree (R410, R411, R413) -/

/-- Whether block `b` of a core has queued work (R411): the partition queues of the array, the table loads of the vector
engine, the move queue. -/
def CoreSt.blockBusy (k : CoreSt) (b : Nat) : Bool :=
  if b = 0 then k.arr.parts.any fun p => !p.2.queue.isEmpty
  else if b = 1 then !k.vec.loads.isEmpty
  else !k.mq.isEmpty

/-- Whether a thread of a core is not IDLE. -/
def CoreSt.threadsBusy (k : CoreSt) : Bool := k.thr.any fun t => decide (t.2.st ≠ .idle)

/-- Whether a node is busy: a core block with a thread that is not IDLE or with work queued (R411). -/
def State.gateBusy (s : State) (n : Nat) : Bool :=
  match gateLeaf n with
  | none => false
  | some (c, b) => (s.core c).threadsBusy || (s.core c).blockBusy b

/-- Whether a child of the node is not OFF (R411). -/
def State.gateKids (s : State) (n : Nat) : Bool :=
  (upto gateNodes).any fun m => decide (gateParent m = some n) && decide ((s.gate m).st ≠ .off)

/-! ## The shared state machine (R423) -/

/-- The status of a function's command and its new state: enable. -/
def FuncSt.enable (f : FuncSt) : FuncSt × Nat :=
  match f.st with
  | .off => ({ st := .starting }, 0)
  | .starting => (f, 0)
  | .on => (f, 0)
  | .stopping => ({ f with pend := true }, 1)

/-- Disable; `ok` says that the function's rule allows it and `same` that it names the stop in progress. -/
def FuncSt.disable (f : FuncSt) (ok same : Bool) : FuncSt × Nat :=
  match f.st with
  | .off => (f, 0)
  | .starting => ({ st := .stopping }, 0)
  | .on => if ok then ({ st := .stopping }, 0) else (f, 2)
  | .stopping => if same then ({ f with pend := false }, 0) else (f, 2)

/-- A stop completes. -/
def FuncSt.stopped (f : FuncSt) : FuncSt := if f.pend then { st := .starting } else { st := .off }

/-! ## Branch clocks and the meter (R413, R414) -/

/-- Divider of a domain from the root PLLs; 0 for one that does not come from them (R400). -/
def domDiv (d : Nat) : Nat :=
  if d = 2 ∨ d = 3 then 8 else if d = 4 then 16 else if d = 5 ∨ d = 6 then 3 else if d = 7 ∨ d = 8 then 6
  else if d = 9 ∨ d = 10 then 4 else if d = 11 ∨ d = 12 then 5 else if d = 13 then 2 else if d = 16 then 12 else 0

/-- The half whose root PLL a domain comes from. -/
def domHalf (d : Nat) : Nat := b2n (decide (d = 3 ∨ d = 6 ∨ d = 8 ∨ d = 10 ∨ d = 12))

/-- The half of a gate node. -/
def gateHalf (n : Nat) : Nat :=
  match gateLeaf n with
  | some (c, _) => halfOf c
  | none => if n < 3 then n - 1 else if n < 19 then (n - 3) / 8 else 0

/-- BRANCH_CLOCK_LOSS: a running branch is off its frequency: an array fault, a core's fault state, or a FATAL event; that of
a domain without a gate names no node that the manual gives (R89, R95, R139, R413; log 58). -/
def execBranchClockLoss (b : ClkBranch) (s : State) : Host.Outcome State Fault Refusal :=
  match b with
  | .gate n =>
    if s.boot.released && s.gateOn 3 n then
      match gateLeaf n with
      | none => .next (s.post (gateHalf n) 0x03 0 .fatal 3 (leBytes 2 n))
      | some (c, b) =>
        if !(s.core c).ready then .next s
        else if b = 0 then .next (s.arrFault c .clk)
        else .next (s.coreFault c (if b = 1 then 2 else 6))
    else .next s
  | .dom d =>
    if !s.boot.released || domDiv d == 0 || (d == 16 && !s.gateOn 3 307) then .next s
    else if d = 16 then .next (s.post 0 0x03 0 .fatal 3 (leBytes 2 307))
    else .next ((s.post (domHalf d) 0x03 0 .fatal 3 (leBytes 2 (Config.freeWord s.freeCtr).toNat)).bumpFree 1)

/-- Whether a domain of the meter is absent: REF at coast, DBG with its gate off, or no domain (R400, R414). -/
def State.domAbsent (s : State) (d : Nat) : Bool :=
  if d = 0 then s.clk.input == 3 else if d = 16 then decide ((s.gate 307).st ≠ .on) else decide (18 ≤ d)

/-- The frequency of a domain, as a fraction of the comparison input of the root PLLs: REF / 4, or AON while they run on it
(R400 to R402). None for AON beside REF and for the lane clocks, which follow another source. -/
def ClkSt.ratio (k : ClkSt) (d : Nat) : Option (Nat × Nat) :=
  if domDiv d ≠ 0 then some (k.mult, domDiv d)
  else if d = 0 then some (4, 1)
  else if d = 15 then some (50, 1)
  else if d = 17 then some (40, 1)
  else if d = 1 ∧ k.input = 3 then some (1, 1)
  else none

/-- Edges of domain `m` in `n` cycles of domain `g`, where both follow one reference; the phases decide `up`, whether one edge
more than the whole number falls into the gate (R414). -/
def ClkSt.edges (k : ClkSt) (m g n : Nat) (up : Bool) : Option Nat :=
  match k.ratio m, k.ratio g with
  | some (a, b), some (c, d) => let x := n * a * d; let y := b * c; some (x / y + b2n (up && decide (x % y ≠ 0)))
  | _, _ => none

/-- FM_DONE: the gate ends; COUNT is 0 for an absent domain, fixed by the table of domains where the two follow one reference
and no slew took place, and else what was counted (R400, R414). -/
def execFmDone (count : BitVec 30) (s : State) : Host.Outcome State Fault Refusal :=
  let cfg := s.raw 0x30020
  let g := field cfg 24 20
  let m := field cfg 29 25
  if s.clk.fm && !(s.domAbsent g) then
    let known := if s.clk.fmSteady then s.clk.edges m g (field cfg 19 0) (count.getLsbD 0) else none
    let n := if s.domAbsent m then 0 else known.getD count.toNat
    .next (s.modClk fun k => { k with fm := false, fmDone := true, fmCount := n })
  else .next s

/-- FM_GATE_ABSENT: the gate domain is absent for 1 ms; the meter sets ERR and stops (R414). The lanes of TLS may be
absent as well. -/
def execFmGateAbsent (s : State) : Host.Outcome State Fault Refusal :=
  let g := field (s.raw 0x30020) 24 20
  if s.clk.fm && decide (s.clk.fmAt + 1000000 ≤ s.now) && (s.domAbsent g || g == 14) then
    .next (s.modClk fun k => { k with fm := false, fmErr := true })
  else .next s

end Sys2Proof.Machine
end

