-- ==== Sys2Proof/Machine/GroupCode.lean ====
section
/-! DEFINITION. A link group on the wire (R261): the control word, its CRC-32, and the lanes that its flits take. -/

namespace Sys2Proof.Machine

/-! ## CRC-32 (R261; bit order and complements: log 56) -/

/-- The IEEE 802.3 polynomial 0x04C11DB7, bit 0 for the highest power. -/
def crcPoly : BitVec 32 := 0xEDB88320

/-- One bit of the division. -/
def crcBit (c : BitVec 32) : BitVec 32 := if c.getLsbD 0 then (c >>> 1) ^^^ crcPoly else c >>> 1

/-- One byte, its bit 0 first. -/
def crcByte (c : BitVec 32) (b : Byte) : BitVec 32 := (upto 8).foldl (fun c _ => crcBit c) (c ^^^ b.setWidth 32)

/-- The CRC-32 of a byte string. -/
def crc32 (l : List Byte) : BitVec 32 := ~~~ (l.foldl crcByte 0xFFFFFFFF)

/-- The CRC of a group: over its flits and then bits [127:32] of the control word, bytes in ascending order. -/
def groupCrc (flits : List (BitVec 512)) (hi : BitVec 96) : BitVec 32 :=
  crc32 ((flits.flatMap fun f => leBytes 64 f.toNat) ++ leBytes 12 hi.toNat)

/-! ## The control word (R261) -/

/-- FLIT_TYPE. -/
def FlitKind.code : FlitKind → BitVec 2
  | .idle => 0
  | .data => 1
  | .message => 2
  | .res => 3

def FlitKind.ofCode (n : BitVec 2) : FlitKind :=
  if n = 0 then .idle else if n = 1 then .data else if n = 2 then .message else .res

/-- ACK_KIND. -/
def AckKind.code : AckKind → BitVec 2
  | .none => 0
  | .ack => 1
  | .nak => 2
  | .res => 3

def AckKind.ofCode (n : BitVec 2) : AckKind := if n = 0 then .none else if n = 1 then .ack else if n = 2 then .nak else .res

/-- The code of flit `i` of a group; an absent one is idle. -/
def flitCode (g : Group) (i : Nat) : BitVec 2 := match g.flits[i]? with | none => 0 | some f => f.kind.code

/-- The credit of VC `v` as its 8 bits. -/
def creditCode (g : Group) (v : Nat) : BitVec 8 := BitVec.ofNat 8 (nth 0 g.credit v)

/-- FLIT_TYPE of 8 flits, flit 0 lowest. -/
def Group.types (g : Group) : BitVec 16 :=
  flitCode g 7 ++ flitCode g 6 ++ flitCode g 5 ++ flitCode g 4 ++ flitCode g 3 ++ flitCode g 2 ++ flitCode g 1 ++ flitCode g 0

/-- CREDIT, VC0 lowest. -/
def Group.credits (g : Group) : BitVec 32 := creditCode g 3 ++ creditCode g 2 ++ creditCode g 1 ++ creditCode g 0

/-- Bits [127:32] of the control word. -/
def Group.ctlHi (g : Group) : BitVec 96 :=
  (0 : BitVec 20) ++ BitVec.ofBool g.lowrateOk ++ BitVec.ofBool g.upshift ++ g.credits ++ g.types ++ g.ackKind.code ++ g.ack ++ g.seq

/-- The group as it leaves. -/
def Group.wire (g : Group) : GroupWire :=
  let fs := g.flits.map (·.bits)
  { ctl := g.ctlHi ++ groupCrc fs g.ctlHi, flits := fs }

/-- Bits [127:32] of a received control word. -/
def GroupWire.hi (w : GroupWire) : BitVec 96 := w.ctl.extractLsb' 32 96

/-- Whether the CRC of a received group is good. -/
def GroupWire.crcOk (w : GroupWire) : Bool := w.ctl.extractLsb' 0 32 == groupCrc w.flits w.hi

/-- What a received group says. -/
def GroupWire.group (w : GroupWire) : Group :=
  let h := w.hi
  { seq := h.extractLsb' 0 12, ack := h.extractLsb' 12 12, ackKind := .ofCode (h.extractLsb' 24 2)
    credit := (upto 4).map fun v => (h.extractLsb' (42 + 8 * v) 8).toNat
    upshift := h.getLsbD 74, lowrateOk := h.getLsbD 75
    flits := (upto w.flits.length).map fun i => ⟨.ofCode (h.extractLsb' (26 + 2 * i) 2), nth 0 w.flits i⟩ }

/-! ## Lanes (R261) -/

/-- The lanes of a mask in ascending order. -/
def lanesOf (m : BitVec 16) : List Nat := (upto 16).filter fun i => m.getLsbD i

/-- The lanes that `n` flits take from place `at_` on, round-robin over the lanes of a mask (log 57). -/
def stripe (m : BitVec 16) (at_ n : Nat) : List Nat :=
  let ls := lanesOf m
  (upto n).map fun i => nth 0 ls ((at_ + i) % ls.length)

end Sys2Proof.Machine
end

