-- ==== Sys2Proof/Machine/LinkOps.lean ====
section
/-! DEFINITION. What the links share: neighbours (R259), training and identity (R267 to R271), lanes (R263 to R266), loss
of packets (R267, R276, R277), groups (R261, R262). -/

namespace Sys2Proof.Machine

/-! ## Links in use and neighbours (R257, R259) -/

/-- Whether the module sits in a bench slot (R255, R257). -/
def State.bench (s : State) : Bool := field s.boot.strap 7 6 == 1 && !s.boot.strapFault

/-- Whether link `l` is at the end of a line and has no neighbour (R259). -/
def State.atEdge (s : State) (l : Nat) : Bool :=
  let a := l / 2
  s.img.coordValid && !(s.img.wrap.getLsbD a) && (if l % 2 = 0 then decide (s.pos a + 1 = s.axisLen a) else decide (s.pos a = 0))

/-- Whether link `l` stays OFF whatever its neighbour (R257 to R259). -/
def State.keptOff (s : State) (l : Nat) : Bool := s.bench || (s.img.loaded && !(s.img.portUse.testBit l)) || s.atEdge l

/-- The position `d` steps beyond the module in the direction of link `l`; none past the end of a line (R259). -/
def State.stepBy (s : State) (l d : Nat) : Option Nat :=
  let n := s.axisLen (l / 2)
  let c := s.pos (l / 2)
  if s.img.wrap.getLsbD (l / 2) then some (if l % 2 = 0 then (c + d) % n else (c + d * n - d) % n)
  else if l % 2 = 0 then (if c + d < n then some (c + d) else none)
  else if d ≤ c then some (c - d) else none

/-- The coordinate `d` steps beyond the module in the direction of link `l`. -/
def State.neighbour (s : State) (l d : Nat) : Option Coord := (s.stepBy l d).map fun x => s.img.coord.set (l / 2) x

/-! ## Losses and states -/

/-- The states in which groups are exchanged. -/
def LState.carries (x : LState) : Bool := x == .active || x == .quarantine || x == .parking

/-- Packets of which some flit has been sent and not all are acknowledged. -/
def LinkSt.waiting (k : LinkSt) : List Packet :=
  (k.replay.flatMap fun g => g.flits.filterMap (·.ends)) ++ (k.txq.takeWhile fun f => f.begins.isNone).filterMap (·.ends)

/-- Packets behind the link of which no flit has been sent. -/
def LinkSt.unsent (k : LinkSt) : List RPkt := k.txq.filterMap (·.begins)

/-- The link layer starts afresh: buffers empty, credits full (R262, R294). -/
def LinkSt.fresh (k : LinkSt) (now : Nat) : LinkSt :=
  { k with
    txq := [], replay := [], resend := 0, fails := 0, txSeq := 0, rxSeq := 0xFFF, nak := false, ackAt := now, rxFlits := []
    cred := [8192, 8192, 14336, 2048], owe := [0, 0, 0, 0], peerLow := false, upAfter := false, upOwn := false, reident := false
    left := 0, debt := [0, 0, 0], lane := 0 }

/-- Packets that wait behind a link go back to the router, to be routed again (R303). -/
def State.giveBack (s : State) (l : Nat) : State :=
  let k := s.link l
  { s with rt := { s.rt with pkts := s.rt.pkts ++ k.unsent } }.modLink l fun k =>
    { k with txq := k.txq.takeWhile fun f => f.begins.isNone }

/-- Discard the replay buffer and count its packets as lost; those behind it are routed again (R267, R276, R277, R303,
R338). -/
def State.lose (s : State) (l : Nat) : State :=
  let ps := (s.link l).waiting
  let s1 := ((s.giveBack l).modLink l fun k => { k.fresh s.now with active := 0, skip := false }).bumpBy (aLnk l 0x044) 32 ps.length
  ps.foldl State.colLost s1

/-- The link goes DOWN (R267). -/
def State.goDown (s : State) (l : Nat) : State :=
  let n := (s.link l).waiting.length
  let s1 := ((s.lostLink l).lose l).modLink l fun k => { k with st := .down, since := s.now }
  (s1.bump (aLnk l 0x040)).post (l % 2) 0x08 l .error 4 (leBytes 4 n)

/-- An attempt at training begins (R267). -/
def LinkSt.train (k : LinkSt) (now : Nat) : LinkSt :=
  { k.fresh now with
    st := .training, since := now, retryAt := none, attempts := satAdd 16 k.attempts 1, active := 0, failed := 0, skip := false
    qreason := 0, mine := none, theirs := none, rate := 0, underReset := false, lit := true }

def State.trainLink (s : State) (l : Nat) : State := s.modLink l fun k => k.train s.now

/-- A link that may hold groups trains anew: what it held is lost. -/
def State.retrain (s : State) (l : Nat) : State := (s.lose l).trainLink l

/-- An attempt has failed and another follows after 1 ms (R264, R267). -/
def LinkSt.failTrain (k : LinkSt) (now why : Nat) : LinkSt :=
  { k with
    st := .training, since := now, lastFail := why, retryAt := some (now + 1000000), mine := none, theirs := none, active := 0
    underReset := false }

/-- The identity exchange begins, or begins again without retraining (R267). -/
def LinkSt.exchange (k : LinkSt) (now : Nat) : LinkSt :=
  { k with st := .ident, since := now, identAt := now, mine := none, theirs := none, qreason := 0, reident := false, heardAt := now }

/-- The identity exchange of a link begins. -/
def State.exchangeLink (s : State) (l : Nat) : State := (s.lostLink l).modLink l fun k => k.exchange s.now

/-- A rate change begins: `to` is the code of RATE that it goes to (R266). -/
def LinkSt.toShift (k : LinkSt) (now rate : Nat) : LinkSt := { k with st := .shifting, shift := rate, since := now }

/-- The width to which a link returns from the low-rate state: degraded once a lane has failed (R263, R266). -/
def LinkSt.trained (k : LinkSt) : Nat := if k.failed = 0 then 0 else 1

/-- The lowest `n` lanes of a mask. -/
def lowLanes : Nat → Nat → Nat → Nat
  | 0, _, _ => 0
  | d + 1, n, m =>
    let i := 16 - (d + 1)
    if 0 < n ∧ m.testBit i then 2 ^ i + lowLanes d (n - 1) m else lowLanes d n m

/-- Lanes good at both ends that have not failed (R263, R264). -/
def LinkSt.lanesOk (k : LinkSt) : BitVec 16 :=
  k.good &&& (match k.peer with | none => 0xFFFF | some i => i.lanes) &&& (~~~ k.failed)

/-- Lanes that carry groups at a rate (R264, R265). -/
def LinkSt.lanesAt (k : LinkSt) (rate : Nat) : BitVec 16 :=
  BitVec.ofNat 16 (lowLanes 16 (if rate = 0 then 16 else if rate = 1 then 8 else 1) k.lanesOk.toNat)

/-! ## Identity (R268, R269) -/

/-- The IDENT that link `l` sends. -/
def State.myIdent (s : State) (l : Nat) : Ident :=
  let v := s.img.coordValid
  let c := fun x => if v then BitVec.ofNat 8 x else (0xFF : Byte)
  { port := BitVec.ofNat 8 l, coordValid := v, strapFault := s.boot.strapFault, rest := decide (s.pstate = .rest)
    serial := s.fuse.serial, jobTag := s.img.jobTag, x := c s.img.coord.x, y := c s.img.coord.y, z := c s.img.coord.z
    minv := BitVec.ofNat 8 s.img.linkMin, lanes := (s.link l).good }

def Ident.coord (i : Ident) : Coord := ⟨i.x.toNat, i.y.toNat, i.z.toNat⟩

/-- The agreed version, the lower of the two highest; none where the ranges hold no version in common (R269; log 61). -/
def agreed (m i : Ident) : Option Nat :=
  let v := min m.vmax.toNat i.vmax.toNat
  if m.vmin.toNat ≤ v ∧ i.vmin.toNat ≤ v then some v else none

/-- The reason of the first check that fails, 0 where all pass (R269). -/
def State.checkIdent (s : State) (l : Nat) (i : Ident) : Nat :=
  let m := s.myIdent l
  match agreed m i with
  | none => 2
  | some v =>
    if m.strapFault || i.strapFault then 7
    else if !(m.coordValid && i.coordValid) then 1
    else if m.jobTag ≠ i.jobTag then 4
    else if i.port.toNat ≠ (if l % 2 = 0 then l + 1 else l - 1) then 5
    else if some i.coord ≠ s.neighbour l 1 ∧ some i.coord ≠ s.neighbour l 2 then 6
    else if v < m.minv.toNat ∨ v < i.minv.toNat then 3
    else 0

/-- Quarantine with its reason; packets that wait behind the link are routed again (R267, R270, R303). -/
def State.quarantine (s : State) (l reason : Nat) : State :=
  let i := (s.link l).peer.getD {}
  let s1 := (s.giveBack l).modLink l fun k =>
    { k with st := .quarantine, qreason := reason, skip := false, since := s.now, resend := k.replay.length, underReset := false }
  (s1.bump (aLnk l 0x048)).post (l % 2) 0x08 l .error 2 (leBytes 1 reason ++ [i.port, i.x, i.y, i.z]) (some (leBytes 8 i.serial.toNat))

/-- Both verdicts pass: the link takes its lanes and goes ACTIVE, with the groups it held sent again, or trains again (R262,
R264, R267, R271). -/
def State.bringUp (s : State) (l : Nat) : State :=
  let k := s.link l
  let n := popcount 16 k.lanesOk.toNat
  if n < 8 then (s.lose l).modLink l fun k => k.failTrain s.now 3
  else if n < 16 ∧ k.ver < 0x11 then (s.lose l).modLink l fun k => k.failTrain s.now 5
  else
    let skip := match k.peer with | none => false | some i => decide (some i.coord ≠ s.neighbour l 1)
    let rate := if n < 16 then 1 else 0
    let s1 := s.modLink l fun k =>
      { k with
        st := .active, since := s.now, dataAt := s.now, ackAt := s.now, attempts := 0, qreason := 0, skip := skip, rate := rate
        failed := ~~~ k.lanesOk, active := k.lanesAt rate, resend := k.replay.length, lane := 0, underReset := false }
    let s2 := if skip then s1.post (l % 2) 0x08 l .warning 3 (coordBytes ((s.neighbour l 1).getD ⟨0, 0, 0⟩)) else s1
    s2.linkClock l

/-- What both verdicts of an exchange lead to (R269). -/
def State.settle (s : State) (l : Nat) : State :=
  let k := s.link l
  match k.mine, k.theirs with
  | some 0, some (0, _) => s.bringUp l
  | some 0, some _ => s.quarantine l 8
  | _, _ => s

/-- The messages of an identity exchange: IDENT, then VERDICT once the peer's IDENT is checked (R268). -/
def State.identMsgs (s : State) (l : Nat) : List Flit :=
  let k := s.link l
  [⟨.message, (s.myIdent l).encode⟩] ++ (match k.mine with | none => [] | some r => [⟨.message, verdictBits r k.ver⟩])

/-! ## Groups (R261, R262, R294) -/

/-- Whether the module asks for the low-rate state on link `l` (R266). -/
def State.wantsLow (s : State) (l : Nat) : Bool := decide (s.pstate = .rest) || bit (s.raw (aLnk l 0x020)) 8

def idleFlit : Flit := ⟨.idle, 0⟩

/-- What a group sent now says. -/
def State.ctlWord (s : State) (l : Nat) (k : LinkSt) (seq : BitVec 12) (up : Bool) : Group :=
  { seq := seq, ackKind := if k.nak then .nak else .ack, ack := k.rxSeq, upshift := up, lowrateOk := s.wantsLow l
    flits := List.replicate 8 idleFlit }

/-- The lanes that carry a link's groups; one in QUARANTINE that has taken none uses the lane of its IDENT (R264, log 57). -/
def LinkSt.carriers (k : LinkSt) : BitVec 16 := if k.active = 0 then BitVec.ofNat 16 (lowLanes 16 1 k.good.toNat) else k.active

/-- A group leaves, striped over the lanes (R261). -/
def LinkSt.put (k : LinkSt) (now : Nat) (g : Group) : LinkSt :=
  { k with
    lastTx := g.wire, txLanes := stripe k.carriers k.lane 8, lane := (k.lane + 8) % (lanesOf k.carriers).length
    nak := false, ackAt := now }

/-- A group of idle flits alone, which is not kept: it repeats the SEQ of the last group that the far end has acknowledged, which
the far end ignores (R262; log 23). -/
def State.sendBare (s : State) (l : Nat) : State :=
  s.modLink l fun k => k.put s.now (s.ctlWord l k (k.txSeq - 1 - BitVec.ofNat 12 k.replay.length) false)

/-- Send a kept group, once more or for the first time. -/
def State.sendKept (s : State) (l : Nat) (g : SentGroup) : State :=
  let fs := g.flits.map (·.f)
  let data := fs.any fun f => decide (f.kind = .data)
  s.modLink l fun k =>
    let k1 := k.put s.now { s.ctlWord l k g.seq g.up with credit := g.credit, flits := fs ++ List.replicate (8 - fs.length) idleFlit }
    { k1 with dataAt := if data then s.now else k.dataAt }

/-- A new group enters the replay buffer and is sent: the first `n` waiting flits with the credits owed (R261, R262). -/
def State.sendNew (s : State) (l n : Nat) (up : Bool) : State :=
  let k := s.link l
  let g : SentGroup := ⟨k.txSeq, k.txq.take n, k.owe.map fun c => min c 255, up⟩
  let s1 := s.modLink l fun k =>
    { k with txq := k.txq.drop n, replay := k.replay ++ [g], txSeq := k.txSeq + 1, owe := k.owe.map fun c => c - min c 255 }
  s1.sendKept l g

/-- A full replay buffer holds back new groups (R262). -/
def LinkSt.full (k : LinkSt) : Bool := decide (2048 ≤ k.replay.length)

/-- UPSHIFT is sent, and a link at the low rate changes to its trained width; a full replay buffer holds it back (R262, R266,
R421). -/
def State.upshift (s : State) (l : Nat) : State :=
  if (s.link l).full then s.modLink l fun k => { k with upOwn := true }
  else (s.sendNew l 0 true).modLink l fun k =>
    let k1 := { k with upOwn := false }
    if k.st = .active ∧ k.rate = 2 then k1.toShift s.now k.trained else k1

/-- Groups of the replay buffer that an ACK or NAK for `a` acknowledges: all up to the one with that SEQ. -/
def ackedCount (rs : List SentGroup) (a : BitVec 12) : Nat :=
  match rs.findIdx? fun g => g.seq == a with
  | none => 0
  | some i => i + 1

/-- Drop acknowledged groups; packets of a collective that end in them are delivered to the next module (R262, R335). -/
def State.takeAck (s : State) (l : Nat) (a : BitVec 12) : State :=
  let k := s.link l
  let n := ackedCount k.replay a
  let ps := (k.replay.take n).flatMap fun g => g.flits.filterMap (·.ends)
  let s1 := s.modLink l fun k =>
    let r := k.replay.drop n
    { k with replay := r, resend := min k.resend r.length, fails := if n = 0 then k.fails else 0 }
  ps.foldl (fun q p => q.colAcked l p) s1

/-- A NAK: every unacknowledged group is sent again; the 16th failed resend of one group takes the link DOWN. -/
def State.takeNak (s : State) (l : Nat) (a : BitVec 12) : State :=
  let s1 := s.takeAck l a
  let k := s1.link l
  if k.replay = [] ∨ k.resend = k.replay.length then s1
  else if 16 ≤ k.fails then s1.goDown l
  else s1.modLink l fun k => { k with resend := k.replay.length, fails := k.fails + 1 }

/-- A packet from a link goes to the router; one in QUARANTINE brings only MGMT, and the credits of any other return (R270, R282,
R293). -/
def State.pktIn (s : State) (l : Nat) (p : Packet) : State :=
  let x : RPkt := { p := p, half := l % 2, inLink := some l }
  if (s.link l).st = .quarantine ∧ p.kind ≠ kMgmt then s.oweCredit x else { s with rt := { s.rt with pkts := s.rt.pkts ++ [x] } }

/-- Move whole packets from the received flits to the router (R282, R293). -/
def State.assemble (s : State) (l : Nat) : Nat → State
  | 0 => s
  | d + 1 =>
    match (s.link l).rxFlits with
    | [] => s
    | f :: r =>
      let n := flitsNeeded f
      if (f :: r).length < n then s
      else
        let p := decodePacket ((f :: r).take n)
        let s1 := s.modLink l fun k => { k with rxFlits := (f :: r).drop n }
        State.assemble (s1.pktIn l p) l d

/-- An arrival is over: the peaks are held, and it is noted when DRAINED has fallen by it (R316, R317). -/
def State.arrived (s : State) (l : Nat) (was : Bool) : State :=
  let s1 := s.notePeak l
  if was && !s1.drained then { s1 with rt := { s1.rt with undrainedAt := some s.now } } else s1

/-- The packet data of a group. -/
def Group.data (g : Group) : List (BitVec 512) := ((g.flits.take 8).filter fun f => decide (f.kind = .data)).map (·.bits)

/-- Accept the next group: credits, flits, the peer's wish for the low rate (R261, R262, R294). -/
def State.acceptGroup (s : State) (l : Nat) (g : Group) : State :=
  let fs := g.data
  let s1 := s.modLink l fun k =>
    { k with
      rxSeq := g.seq, rxFlits := k.rxFlits ++ fs, peerLow := g.lowrateOk
      dataAt := if fs = [] then k.dataAt else s.now
      cred := (upto 4).map fun v => min (bufFlits v) (nth 0 k.cred v + nth 0 g.credit v) }
  if fs = [] then s1 else (s1.assemble l 8).arrived l s.drained

end Sys2Proof.Machine
end

