-- ==== Sys2Proof/Machine/Link.lean ====
section
/-! DEFINITION. The link layer (R261 to R266) and the training, identity and parking of links (R267 to R277). -/

namespace Sys2Proof.Machine

/-! ## Groups (R262, R266) -/

/-- LINK_GROUP_RX: the CRC is checked; ACK and NAK act, and the group with the next SEQ is accepted. UPSHIFT brings the
trained width back. A replay limit met as a lane fails takes the link DOWN (R262, R266, R279). -/
def execLinkGroupRx (l : LinkId) (ctl : BitVec 128) (flits : List (BitVec 512)) (s : State) : Host.Outcome State Fault Refusal :=
  let w : GroupWire := ⟨ctl, flits⟩
  let k := s.link l
  let g := w.group
  if k.st = .shifting then
    if w.crcOk && g.ackKind == .nak && k.since == s.now && ((s.takeNak l g.ack).link l).st == .down then .next (s.takeNak l g.ack)
    else .next (if w.crcOk && g.upshift && k.shift == 2 then s.modLink l fun k => { k with upAfter := true } else s)
  else if !k.st.carries then .next s
  else if !w.crcOk then .next ((s.bump (aLnk l 0x030)).modLink l fun k => { k with nak := true })
  else
    let s1 := match g.ackKind with
      | .ack => s.takeAck l g.ack
      | .nak => s.takeNak l g.ack
      | .none => s
      | .res => s
    let k1 := s1.link l
    if !k1.st.carries then .next s1
    else
      if g.seq = k1.rxSeq + 1 then
        let s2 := s1.acceptGroup l g
        .next (if g.upshift && k1.st == .active && k1.rate == 2 then s2.modLink l fun k => k.toShift s.now k.trained else s2)
      else if (k1.rxSeq - g.seq).toNat < 2048 then .next s1
      else .next (s1.modLink l fun k => { k with nak := true })

/-- LINK_GROUP_SEND: resends come first, then up to 8 waiting flits with the credits owed, while the replay buffer has
room; at the low rate waiting data brings an UPSHIFT first (R261, R262, R266, R270). -/
def execLinkGroupSend (l : LinkId) (s : State) : Host.Outcome State Fault Refusal :=
  let k := s.link l
  if !k.st.carries then .next s
  else if k.resend ≠ 0 then
    match k.replay[k.replay.length - k.resend]? with
    | none => .next s
    | some g => .next (((s.sendKept l g).modLink l fun k => { k with resend := k.resend - 1 }).bump (aLnk l 0x034))
  else if k.full ∨ (k.st = .parking ∧ k.txq = []) then .next s
  else if k.upOwn ∨ (k.st = .active ∧ k.rate = 2 ∧ k.txq ≠ []) then .next (s.upshift l)
  else .next (s.sendNew l 8 false)

/-- LINK_ACK_TIMER: an ACK leaves at least every 0.25 µs (R262). -/
def execLinkAckTimer (l : LinkId) (s : State) : Host.Outcome State Fault Refusal :=
  let k := s.link l
  if k.st.carries && decide (k.ackAt + 250 ≤ s.now) then .next (s.sendBare l) else .next s

/-- LANE_FAIL: a lane fails; the link degrades to 8 lanes or goes DOWN (R263, R266 to R268). -/
def execLaneFail (l : LinkId) (lane : SlotId) (s : State) : Host.Outcome State Fault Refusal :=
  let b : BitVec 16 := BitVec.ofNat 16 (2 ^ lane.val)
  let k := s.link l
  let s1 := s.modLink l fun k => { k with failed := k.failed ||| b, good := k.good &&& (~~~ b) }
  let n := popcount 16 (s1.link l).lanesOk.toNat
  match k.st with
  | .active =>
    if n < 8 ∨ k.ver < 0x11 then .next (s1.goDown l)
    else if k.active &&& b = 0 then .next s1
    else .next (s1.modLink l fun k => k.toShift s.now 1)
  | .shifting =>
    if n < 8 ∨ k.ver < 0x11 then .next (s1.goDown l)
    else .next (s1.modLink l fun k => { k with shift := if k.shift = 2 then 2 else 1 })
  | .quarantine => .next (if n < 8 then s1.goDown l else s1)
  | .ident => .next (s.modLink l fun k => { k with good := k.good &&& (~~~ b) })
  | _ => .next s

/-- SHIFT_COMPLETE: a rate change ends and the groups held are sent again; a change that fails takes the link DOWN. An UPSHIFT
of either end that fell into a down-shift follows, and so does the identity exchange of an image. A clock recovered from a
change of more than 100 µs has failed (R263, R266, R267, R279, R404, R407). -/
def execShiftComplete (l : LinkId) (ok : Bool) (s : State) : Host.Outcome State Fault Refusal :=
  let k := s.link l
  if k.st ≠ .shifting then .next s
  else if !ok then .next (s.goDown l)
  else
    let s0 := if k.since + 100000 < s.now then s.lostLink l else s
    let s1 := (s0.modLink l fun k =>
      { k with rate := k.shift, active := k.lanesAt k.shift, resend := k.replay.length, st := .active, since := s.now
               dataAt := s.now, upAfter := false, lane := 0 }).bump (aLnk l 0x04C)
    let s2 := s1.linkClock l
    if k.upOwn then .next (s2.upshift l)
    else if k.upAfter then .next (s2.modLink l fun j => j.toShift s.now j.trained)
    else if k.reident then .next (s2.exchangeLink l)
    else .next s2

/-- LOWRATE_IDLE_EXPIRE: both ends ask for the low rate and no packet data has passed for LOWRATE_IDLE (R265, R266). -/
def execLowrateIdleExpire (l : LinkId) (s : State) : Host.Outcome State Fault Refusal :=
  let k := s.link l
  let idle := field (s.raw (aLnk l 0x020)) 7 0 * 100000
  if k.st == .active && k.rate != 2 && decide (0x12 ≤ k.ver) && s.wantsLow l && k.peerLow && decide (k.dataAt + idle ≤ s.now) then
    .next (s.modLink l fun k => k.toShift s.now 2)
  else .next s

/-! ## Training and identity (R267 to R271) -/

/-- TRAIN_LOCK: the lanes have locked with at least 8 good, and the identity exchange begins. -/
def execTrainLock (l : LinkId) (good : BitVec 16) (s : State) : Host.Outcome State Fault Refusal :=
  let k := s.link l
  if k.st == .training && k.retryAt.isNone && decide (8 ≤ popcount 16 good.toNat) then
    .next (s.modLink l fun k => { (k.fresh s.now).exchange s.now with good := good, failed := 0, ver := 0 })
  else .next s

/-- The code of LAST_FAIL (R280). -/
def TrainFail.code : TrainFail → Nat
  | .noSignal => 1
  | .noLock => 2
  | .fewLanes => 3

/-- TRAIN_LOCK_TIMEOUT: no lock within 100 ms; a new cause is reported, and another attempt follows after 1 ms. -/
def execTrainLockTimeout (l : LinkId) (why : TrainFail) (s : State) : Host.Outcome State Fault Refusal :=
  let k := s.link l
  if k.st == .training && k.retryAt.isNone && decide (k.since + 100000000 ≤ s.now) then
    let s1 := s.modLink l fun k => k.failTrain s.now why.code
    .next (if why.code = k.lastFail then s1
      else s1.post (l.val % 2) 0x08 l .error 1 (leBytes 1 why.code ++ leBytes 2 k.attempts))
  else .next s

/-- TRAIN_RETRY_TIMER: 1 ms after a failed attempt, or after the link went DOWN, it trains again. -/
def execTrainRetryTimer (l : LinkId) (s : State) : Host.Outcome State Fault Refusal :=
  let k := s.link l
  let due := match k.st, k.retryAt with
    | .training, some t => decide (t ≤ s.now)
    | .down, _ => decide (k.since + 1000000 ≤ s.now)
    | _, _ => false
  .next (if due then s.trainLink l else s)

/-- IDENT_SEND_TIMER: every 10 µs of the exchange the IDENT is sent, with the VERDICT once there is one. -/
def execIdentSendTimer (l : LinkId) (s : State) : Host.Outcome State Fault Refusal :=
  let k := s.link l
  if k.st == .ident && decide (k.identAt ≤ s.now) then
    .next (s.modLink l fun k => { k with identAt := s.now + 10000, outbox := s.identMsgs l })
  else .next s

/-- IDENT_RX: the peer's IDENT is checked and answered with the own IDENT and a VERDICT; on a link that is up it begins a new exchange. A
parked peer that identifies itself is active again (R267, R269). -/
def execIdentRx (l : LinkId) (id : Ident) (s : State) : Host.Outcome State Fault Refusal :=
  let st := (s.link l).st
  if st = .peerParked then .next (s.trainLink l)
  else if st ≠ .ident ∧ st ≠ .active ∧ st ≠ .quarantine then .next s
  else
    let s0 := if st = .ident then s else s.exchangeLink l
    let r := s0.checkIdent l id
    let ver := (agreed (s0.myIdent l) id).getD 0
    let s1 := s0.modLink l fun k => { k with peer := some id, mine := some r, ver := ver, heardAt := s.now }
    let s2 := s1.modLink l fun k => { k with outbox := s1.identMsgs l }
    .next (if r = 0 then s2.settle l else s2.quarantine l r)

/-- VERDICT_RX: the peer's verdict on this end (R267, R269). -/
def execVerdictRx (l : LinkId) (reason version : Byte) (s : State) : Host.Outcome State Fault Refusal :=
  if (s.link l).st = .ident then
    .next ((s.modLink l fun k => { k with theirs := some (reason.toNat, version.toNat) }).settle l)
  else .next s

/-- IDENT_TIMEOUT: no IDENT from the peer within 1 ms, of the beginning or of the last one (R267, R279). -/
def execIdentTimeout (l : LinkId) (s : State) : Host.Outcome State Fault Refusal :=
  let k := s.link l
  if k.st == .ident && decide (max k.since k.heardAt + 1000000 ≤ s.now) then
    .next ((s.retrain l).modLink l fun k => { k with lastFail := 4 })
  else .next s

/-- LINK_SIGNAL_LOSS: no signal for 10 µs. -/
def execLinkSignalLoss (l : LinkId) (s : State) : Host.Outcome State Fault Refusal :=
  let st := (s.link l).st
  if st = .active ∨ st = .quarantine ∨ st = .shifting then .next (s.goDown l) else .next s

/-! ## Parking (R267, R277) -/

/-- PARK_DRAINED: the replay buffer is empty or 100 µs have passed; the link idles its lanes, or trains where a LINK_REJOIN
was deferred. The manual gives the PARK notice no bits (log 4). -/
def execParkDrained (l : LinkId) (s : State) : Host.Outcome State Fault Refusal :=
  let k := s.link l
  if k.st == .parking && (k.waiting.isEmpty && k.replay.isEmpty && k.txq.isEmpty || decide (k.since + 100000 ≤ s.now)) then
    let note : List Flit := if 0x13 ≤ k.ver then [⟨.message, Config.freeNonce s.freeCtr ++ Config.freeNonce (s.freeCtr + 1)⟩] else []
    let s1 := ((s.lose l).bumpFree 2).modLink l fun k => { k with st := .parked, pend := false, outbox := note, since := s.now }
    .next (if k.pend then s1.trainLink l else s1)
  else .next s

/-- PARK_NOTICE_RX: the peer has parked; nothing more leaves this end. Whether a link that is parking itself began in the same
cycle as its peer, it cannot tell: a free choice keeps it PARKING (R267, R277; log 59). -/
def execParkNoticeRx (l : LinkId) (s : State) : Host.Outcome State Fault Refusal :=
  let st := (s.link l).st
  if st = .off ∨ st = .parked ∨ st = .peerParked then .next s
  else if st = .parking ∧ (Config.freeWord s.freeCtr).getLsbD 0 then .next (s.bumpFree 1)
  else
    let s1 := if st = .parking then s.bumpFree 1 else s
    .next (((s1.lostLink l).lose l).modLink l fun k => { k with st := .peerParked, since := s.now, pend := false })

/-- PEER_LANES_ACTIVE: the parked peer's lanes are active again. -/
def execPeerLanesActive (l : LinkId) (s : State) : Host.Outcome State Fault Refusal :=
  if (s.link l).st = .peerParked then .next (s.trainLink l) else .next s

end Sys2Proof.Machine
end

