-- ==== Sys2Proof/Machine/SecOps.lean ====
section
/-! DEFINITION. What the security block shares with the other blocks: the measurement log (R461), the end of debug mode
(R468), the end of a firmware update (R460). -/

namespace Sys2Proof.Machine

def State.modSec (s : State) (f : SecSt → SecSt) : State := { s with sec := f s.sec }

/-- The bytes of a digest. -/
def digBytes (d : BitVec 384) : List Byte := beBytes 48 d.toNat

/-- A log entry of 64 B (R461). -/
def logEntry (type ver svn : Nat) (time : DWord) (d : BitVec 384) : List Byte :=
  leBytes 1 type ++ [0] ++ leBytes 2 ver ++ leBytes 1 svn ++ [0, 0, 0] ++ leBytes 8 time.toNat ++ digBytes d

/-- Enter a measurement into the log and LOG_DIGEST (R461). VERSION and SVN of an entry that is no firmware component are
not stated (log 4). -/
def State.logAdd (s : State) (type : Nat) (vs : Option (Nat × Nat)) (d : BitVec 384) : State :=
  let w := (Config.freeWord s.freeCtr).toNat
  let v := vs.getD (w % 65536, w / 65536 % 256)
  let e := logEntry type v.1 v.2 s.timeCount d
  (s.modSec fun x =>
    { x with
      log := if x.log.length < 64 then x.log ++ [e] else x.log
      logCount := x.logCount + 1
      logDig := Config.sha384 (digBytes x.logDig ++ e) }).bumpFree (if vs.isNone then 1 else 0)

/-- The first bytes of a key id. -/
def keyBytes (k : BitVec 128) (n : Nat) : List Byte := (beBytes 16 k.toNat).take n

/-- A new challenge (R466). -/
def State.newChallenge (s : State) : State :=
  (s.modSec fun x => { x with chal := Config.freeChallenge s.freeCtr }).bumpFree 1

/-- Every STOP bit clears and stopped threads resume (R468); those of a core in its fault state stay frozen (R108). -/
def CoreSt.unstop (k : CoreSt) : CoreSt :=
  { k with
    stop := 0
    thr := k.thr.map fun p => (p.1, if p.2.st = .stopped ∧ k.faultState = false then { p.2 with st := .run } else p.2) }

/-- Debug mode ends: `cause` 0 command, 1 duration, 2 owner change, 3 reset (R468, R470). -/
def State.debugEnd (s : State) (cause : Nat) : State :=
  if s.debugOn then
    let cs := s.cores.filterMap fun p =>
      let k := p.2.unstop
      if k = {} then none else some (p.1, k)
    let s1 := { s with debugOn := false, cores := cs }.modSec fun x => { x with dbgUntil := 0, dbgKey := 0 }
    (s1.logAdd 6 none 0).post 0 0x02 0 .notice 7 (leBytes 1 cause)
  else s

/-- The slot that an update writes. -/
def SecSt.target (x : SecSt) : Nat := 1 - x.run

/-- Mark a slot invalid. -/
def SecSt.spoil (x : SecSt) (slot : Nat) : SecSt :=
  if slot = 0 then { x with slot0 := { x.slot0 with valid := false } } else { x with slot1 := { x.slot1 with valid := false } }

/-- The update ends with LAST; a firmware package leaves its slot marked invalid (R460, R469). -/
def State.fwuEnd (s : State) (last : Nat) : State :=
  s.modSec fun x =>
    let y := if x.fwu.kind = 2 ∨ x.fwu.data = [] then x else x.spoil x.target
    { y with fwu := { last := last } }

end Sys2Proof.Machine
end

