-- ==== Sys2Proof/Machine/CmdCode.lean ====
section
/-! DEFINITION. The commands on the wire: opcodes, argument layouts and their checks (R350, R356 to R359). -/

namespace Sys2Proof.Machine

/-! ## Opcodes (R359) -/

def opClaim : Nat := 0x01
def opRenew : Nat := 0x02
def opHandover : Nat := 0x03
def opRelease : Nat := 0x04
def opRecover : Nat := 0x05
def opLoadImage : Nat := 0x10
def opStart : Nat := 0x11
def opHalt : Nat := 0x12
def opReset : Nat := 0x13
def opSetPower : Nat := 0x14
def opLinkPark : Nat := 0x15
def opLinkRejoin : Nat := 0x16
def opQuiesce : Nat := 0x17
def opResume : Nat := 0x18
def opClock : Nat := 0x19
def opFwUpdate : Nat := 0x1A
def opDebug : Nat := 0x1B
def opWriteReg : Nat := 0x20
def opWriteMem : Nat := 0x21
def opQpCreate : Nat := 0x22
def opQpDestroy : Nat := 0x23
def opMrReg : Nat := 0x24
def opMrDereg : Nat := 0x25
def opReadReg : Nat := 0x40
def opReadMem : Nat := 0x41
def opStatus : Nat := 0x42
def opSubscribe : Nat := 0x43
def opUnsubscribe : Nat := 0x44
def opAttest : Nat := 0x45

/-- A critical command (R359). -/
def critical (op : Nat) : Bool := decide (op < 0x40)

/-! ## Statuses (R358) -/

def stAccepted : Nat := 0
def stDeferred : Nat := 1
def stRefused : Nat := 2
def stNotOwner : Nat := 3
def stStale : Nat := 4
def stHeld : Nat := 5
def stOwned : Nat := 6
def stBad : Nat := 7
def stAddr : Nat := 8
def stDenied : Nat := 9
def stBridge : Nat := 0x0A
def stBusy : Nat := 0x0B
def stMem : Nat := 0x0C
def stImage : Nat := 0x0D
def stAuth : Nat := 0x0E
def stVersion : Nat := 0x0F
def stNotSupported : Nat := 0x10

/-! ## Arguments (R359) -/

def beAt (l : List Byte) (o n : Nat) : Nat := beNat (slice l o n)

/-- Bytes of zeros. -/
def zeros (n : Nat) : List Byte := List.replicate n 0

/-- A mask of cores: bit c at byte c / 8, bit c mod 8. -/
def coreMask (m : BitVec 96) : List Byte := leBytes 12 m.toNat

def argsRecover (sig : BitVec 768) (cert : List Byte) : List Byte :=
  beBytes 96 sig.toNat ++ beBytes 2 cert.length ++ zeros 2 ++ cert
def argsStart (cores : BitVec 96) (threads entry : Word) (arg : DWord) : List Byte :=
  coreMask cores ++ beBytes 4 threads.toNat ++ beBytes 4 entry.toNat ++ beBytes 8 arg.toNat
def argsReset (kind target : Nat) : List Byte := beBytes 1 kind ++ zeros 1 ++ beBytes 2 target
def argsFw (step off : Nat) (data : List Byte) : List Byte :=
  beBytes 1 step ++ zeros 3 ++ beBytes 4 off ++ beBytes 2 data.length ++ zeros 2 ++ data
def argsDebug (on : Nat) (token : List Byte) : List Byte := beBytes 1 on ++ zeros 1 ++ beBytes 2 token.length ++ token
def argsPairs (ps : List (Word × Word)) : List Byte :=
  beBytes 2 ps.length ++ zeros 2 ++ ps.flatMap fun p => beBytes 4 p.1.toNat ++ beBytes 4 p.2.toNat
def argsMem (addr : Nat) (data : List Byte) : List Byte := beBytes 8 addr ++ beBytes 2 data.length ++ zeros 2 ++ data
def argsQp (a : QpArgs) : List Byte :=
  beBytes 16 a.peerIp.toNat ++ beBytes 4 a.peerQpn.toNat ++ [a.pmtu, a.slotLog2] ++ beBytes 2 a.slotCount.toNat
    ++ beBytes 4 a.rqPsn.toNat ++ beBytes 8 a.ringAddr.toNat ++ beBytes 2 a.notify.toNat ++ zeros 2

/-- The bytes from `o` to `o + n` are zeros: a reserved field. -/
def res0 (l : List Byte) (o n : Nat) : Bool := allZero (slice l o n)

/-- A known opcode whose arguments have the right length and whose reserved fields are zero (R358). -/
def argsOk (op : Nat) (l : List Byte) : Bool :=
  let n := l.length
  let z := res0 l
  let none_ := [opRenew, opRelease, opQuiesce, opResume, opStatus, opUnsubscribe]
  if none_.contains op then n == 0
  else if op = opClaim then n == 4 && z 2 2
  else if op = opHandover then n == 8
  else if op = opRecover then n == 100 + beAt l 96 2 && decide (beAt l 96 2 ≤ 1024) && z 98 2
  else if op = opLoadImage then n == 12
  else if op = opStart then n == 28
  else if op = opHalt then n == 12
  else if op = opReset then n == 4 && z 1 1 && decide (beAt l 0 1 < 4)
  else if op = opSetPower then n == 4 && z 1 3 && decide (beAt l 0 1 < 3)
  else if op = opLinkPark then n == 4 && z 1 3 && decide (beAt l 0 1 < 64)
  else if op = opLinkRejoin then n == 4 && z 2 2 && decide (beAt l 0 1 < 8) && decide (beAt l 1 1 < 64)
  else if op = opClock then n == 4 && z 3 1 && decide (beAt l 0 1 < 3) && decide (beAt l 1 1 < 6) && decide (beAt l 2 1 < 2)
  else if op = opFwUpdate then
    n == 12 + beAt l 8 2 && decide (beAt l 8 2 ≤ 1024) && z 1 3 && z 10 2 && decide (beAt l 0 1 < 4)
  else if op = opDebug then
    n == 4 + beAt l 2 2 && decide (beAt l 2 2 ≤ 1024) && z 1 1 && decide (beAt l 0 1 < 2)
      && (beAt l 0 1 == 0 || beAt l 2 2 == 152)
  else if op = opWriteReg then
    n == 4 + 8 * beAt l 0 2 && z 2 2 && decide (1 ≤ beAt l 0 2) && decide (beAt l 0 2 ≤ 128)
  else if op = opWriteMem then
    n == 12 + beAt l 8 2 && z 10 2 && decide (1 ≤ beAt l 8 2) && decide (beAt l 8 2 ≤ 1024)
  else if op = opQpCreate then n == 40 && z 38 2
  else if op = opQpDestroy ∨ op = opMrDereg then n == 4
  else if op = opMrReg then n == 20 && z 17 3 && decide (beAt l 16 1 < 4)
  else if op = opReadReg then n == 8 && z 6 2 && decide (1 ≤ beAt l 4 2) && decide (beAt l 4 2 ≤ 256)
  else if op = opReadMem then n == 12 && z 10 2 && decide (1 ≤ beAt l 8 2) && decide (beAt l 8 2 ≤ 1024)
  else if op = opSubscribe then n == 4 && z 1 1 && decide (beAt l 0 1 < 64)
  else if op = opAttest then n == 48
  else false

/-- A command that needs a higher minor version than the agreed one (R356). -/
def needsMinor (ver : Nat) (op : Nat) (l : List Byte) : Bool :=
  decide (ver < 0x21) && ((op == opSubscribe && beAt l 2 2 != 0xFFFF) || (op == opWriteReg && decide (1 < beAt l 0 2)))

end Sys2Proof.Machine
end

