-- ==== Sys2Proof/Machine/AukorCode.lean ====
section
/-! DEFINITION. Aukor frames as bytes: header and layout checks, session keys and tag, and what the module sends (R350 to
R354, R357). -/

namespace Sys2Proof.Machine

/-! ## Keys and tag (R353) -/

/-- HMAC with SHA-384, whose block is 128 B. -/
def hmac384 (k m : List Byte) : List Byte :=
  let k1 := if 128 < k.length then digBytes (Config.sha384 k) else k
  let k0 := k1 ++ zeros (128 - k1.length)
  let pad := fun (x : Byte) => k0.map (· ^^^ x)
  digBytes (Config.sha384 (pad 0x5C ++ digBytes (Config.sha384 (pad 0x36 ++ m))))

def hkdfExtract (salt ikm : List Byte) : List Byte := hmac384 salt ikm

/-- HKDF-Expand to 48 B, one block of SHA-384. -/
def hkdfExpand (prk info : List Byte) : List Byte := hmac384 prk (info ++ [1])

/-- The ASCII bytes of a text. -/
def ascii (t : String) : List Byte := t.toList.map fun c => BitVec.ofNat 8 c.toNat

/-- The key of one direction of a session. -/
def sessionKey (prk : List Byte) (dir : String) (id : DWord) : List Byte :=
  hkdfExpand prk (ascii "aukor " ++ ascii dir ++ beBytes 8 id.toNat)

/-- The tag of a frame. -/
def frameTag (k m : List Byte) : List Byte := (hmac384 k m).take 16

/-- The key id of a certificate: the first 16 B of the SHA-384 of its SubjectPublicKeyInfo. -/
def keyIdOf (spki : List Byte) : BitVec 128 := BitVec.ofNat 128 (beNat ((digBytes (Config.sha384 spki)).take 16))

/-! ## The header (R351) -/

def aukorMagic : Nat := 0x41554B52

/-- What a frame's header carries beside MAGIC, BODY_LEN and its reserved bytes. -/
structure AukorHead where
  ver : Nat
  type : Nat
  frag : Nat := 0
  session : DWord
  counter : DWord := 0
  deriving DecidableEq, Repr

/-- The header of a frame whose body has `n` bytes. -/
def AukorHead.bytes (h : AukorHead) (n : Nat) : List Byte :=
  beBytes 4 aukorMagic ++ beBytes 1 h.ver ++ beBytes 1 h.type ++ beBytes 1 h.frag ++ zeros 1 ++ beBytes 8 h.session.toNat
    ++ beBytes 8 h.counter.toNat ++ beBytes 2 n ++ zeros 6

/-- Types 4 to 8 are tagged. -/
def tagged (type : Nat) : Bool := decide (4 ≤ type)

/-- A received frame in its layout: header, body, tag and the bytes that the tag covers. -/
structure AukorIn where
  h : AukorHead
  body : List Byte
  tag : List Byte
  covered : List Byte
  deriving DecidableEq, Repr

/-- FRAG, SESSION and COUNTER as the type asks for them. -/
def AukorHead.ok (h : AukorHead) : Bool :=
  decide (1 ≤ h.type) && decide (h.type ≤ 8)
    && (if h.type = 3 then decide (1 ≤ h.frag % 16) && decide (h.frag % 16 ≤ 4) && decide (h.frag / 16 < h.frag % 16) else h.frag == 0)
    && (if h.type = 1 then h.session == 0 else true)
    && (if tagged h.type then h.counter != 0 else h.counter == 0)

/-- The body of a frame that the module takes, as R352 and R357 lay it out. -/
def bodyOk (type : Nat) (b : List Byte) : Bool :=
  if type = 1 then b.length == 36 && res0 b 2 2
  else if type = 5 then decide (8 ≤ b.length)
  else if type = 8 then b.length == 4 && res0 b 1 3
  else true

/-- A UDP payload read as a frame; none where it breaks the layout (R350, R351). -/
def aukorParse (l : List Byte) : Option AukorIn :=
  let n := beAt l 0x18 2
  let h : AukorHead :=
    { ver := beAt l 4 1, type := beAt l 5 1, frag := beAt l 6 1, session := BitVec.ofNat 64 (beAt l 8 8)
      counter := BitVec.ofNat 64 (beAt l 0x10 8) }
  let body := slice l 32 n
  if 32 ≤ l.length ∧ beAt l 0 4 = aukorMagic ∧ res0 l 7 1 = true ∧ res0 l 0x1A 6 = true ∧ n ≤ 1400
      ∧ l.length = 32 + n + (if tagged h.type then 16 else 0) ∧ h.ok = true ∧ bodyOk h.type body = true then
    some { h := h, body := body, tag := slice l (32 + n) 16, covered := l.take (32 + n) }
  else none

/-! ## What the module sends (R351, R352, R357) -/

/-- The highest version the module speaks (R356). -/
def aukorMax : Nat := 0x22

/-- A HELLO_REPLY body up to SIG_M. -/
def helloReplyPart (status agreed : Nat) (nonce : BitVec 256) (serial : DWord) (qm : BitVec 776) : List Byte :=
  beBytes 1 status ++ beBytes 1 agreed ++ zeros 2 ++ beBytes 32 nonce.toNat ++ beBytes 8 serial.toNat ++ beBytes 97 qm.toNat ++ zeros 3

/-- What SIG_M covers: HELLO body, HELLO_REPLY body up to SIG_M, SESSION. -/
def helloCovered (hello part : List Byte) (id : DWord) : List Byte := hello ++ part ++ beBytes 8 id.toNat

/-- A RESPONSE body. -/
def Resp.bytes (r : Resp) : List Byte :=
  beBytes 2 r.op ++ beBytes 2 r.reqId.toNat ++ beBytes 1 r.status ++ zeros 3 ++ beBytes 4 r.epoch.toNat ++ r.data

/-- A tagged frame of a session. -/
def Peer.frame (p : Peer) (ver type : Nat) (counter : DWord) (body : List Byte) : List Byte :=
  let h : AukorHead := { ver := ver, type := type, session := p.id, counter := counter }
  let m := h.bytes body.length ++ body
  m ++ frameTag p.key m

/-- The UDP payload of an Aukor frame that leaves; none for what is no Aukor frame. -/
def OutMsg.payload : OutMsg → Option (List Byte)
  | .helloReply _ id body =>
    let h : AukorHead := { ver := aukorMax, type := 2, session := id }
    some (h.bytes body.length ++ body)
  | .keyReply p st => some (p.frame aukorMax 4 1 (beBytes 1 st ++ zeros 3))
  | .resp p n r => some (p.frame p.ver.toNat 6 n r.bytes)
  | .event p n recs => some (p.frame p.ver.toNat 7 n recs.flatten)
  | .close p n reason => some (p.frame p.ver.toNat 8 n (beBytes 1 reason ++ zeros 3))
  | _ => none

/-- The ECN field of what leaves in an IP packet: ECT(0) (R345). -/
def OutMsg.ecn : OutMsg → Option (BitVec 2)
  | .arp _ _ => none
  | .pause _ _ => none
  | .i3c _ => none
  | .regValue _ _ => none
  | .regStatus _ _ => none
  | _ => some 2

/-- Whether a frame leaves in the bulk class; the others on the host port are management (R344). -/
def OutMsg.bulk : OutMsg → Bool
  | .roce _ _ _ => true
  | _ => false

end Sys2Proof.Machine
end

