-- ==== Sys2Proof/Machine/ImgOps.lean ====
section
/-! DEFINITION. A Forming Image: its layout (R373 to R376), the walk over its sections and the checks of their contents (R168,
R170, R191, R198, R199, R240, R248, R254, R258, R321, R378, R380, R384 to R395). -/

namespace Sys2Proof.Machine

/-! ## Errors (R380) -/

/-- A refused check: status, CODE, SECTION and OFFSET. -/
structure ImgErr where
  status : Nat
  code : Nat
  sec : Nat
  off : Nat
  deriving DecidableEq, Repr

/-- The first check that failed. -/
def firstErr : List (Option ImgErr) → Option ImgErr
  | [] => none
  | some e :: _ => some e
  | none :: r => firstErr r

/-- A check that ends in IMAGE_ERROR. -/
def chk (ok : Bool) (code sec off : Nat) : Option ImgErr := if ok then none else some ⟨stImage, code, sec, off⟩

def cLENGTH : Nat := 7
def cORDER : Nat := 8
def cMISSING : Nat := 9
def cFIELD : Nat := 10
def cOVERLAP : Nat := 11
def cVERSION : Nat := 6

/-! ## Layout (R373 to R376) -/

def pad8 (n : Nat) : Nat := (n + 7) / 8 * 8

def Img.at_ (m : Img) (o n : Nat) : Nat := leAt m.b o n
def Img.zero (m : Img) (o n : Nat) : Bool := allZero (slice m.b o n)

/-- The body of a section; none where it is absent. -/
def Img.body (m : Img) (t : Nat) : Option Nat := mapFind m.secs t

/-- A field of a section's body, 0 where the section is absent. -/
def Img.fld (m : Img) (t o n : Nat) : Nat := match m.body t with | none => 0 | some x => m.at_ (x + o) n

/-- Offsets of `n` code blobs from `o`, and the end of the last (R386). -/
def blobsAt (b : List Byte) : Nat → Nat → List Nat × Nat
  | 0, o => ([], o)
  | n + 1, o => let r := blobsAt b n (o + 24 + pad8 (leAt b (o + 20) 4)); (o :: r.1, r.2)

/-- The length that a body at `o` must have, from the counts it holds (R375, R384 to R394). -/
def bodyLen (b : List Byte) (t o len : Nat) : Option Nat :=
  let f := fun (h : Nat) (n : Nat) => if len < h then none else some n
  if t = 1 then some 16
  else if t = 2 then some 224
  else if t = 3 then f 392 ((blobsAt b (leAt b (o + 0x180) 2) (o + 0x188)).2 - o)
  else if t = 4 then f 8 (8 + 16 * leAt b o 1)
  else if t = 5 then f 16 (16 + 192 * leAt b (o + 4) 2 + 32 * leAt b (o + 6) 2)
  else if t = 6 then f 32 (32 + 24 * leAt b (o + 24) 1 + 64 * leAt b (o + 20) 2 + 1040 * leAt b (o + 22) 2)
  else if t = 7 then f 16 (16 + 64 * leAt b (o + 8) 2)
  else if t = 8 then f 24 (24 + 2 * leAt b (o + 16) 2)
  else if t = 9 then some 8
  else if t = 10 then some 40
  else some 16

/-- The walk over `n` sections from `o`: the first failure, the sections, the end (R375, R380 step 5). -/
def walkSecs (b : List Byte) (minor stop : Nat) : Nat → Nat → Nat → Option ImgErr × List (Nat × Nat) × Nat
  | 0, o, _ => (none, [], o)
  | n + 1, o, prev =>
    let t := leAt b o 1
    let len := leAt b (o + 4) 4
    let nx := o + 8 + pad8 len
    let e := firstErr [
      chk (decide (o + 8 ≤ stop)) cLENGTH 0 12, chk (decide (1 ≤ t) && decide (t ≤ 11)) cFIELD 0 o,
      chk (!(decide (10 ≤ t) && minor == 0)) cVERSION t o, chk (decide (prev < t)) cORDER t o,
      chk (decide (nx ≤ stop) && bodyLen b t (o + 8) len == some len) cLENGTH t (o + 4),
      chk (allZero (slice b (o + 8 + len) (nx - (o + 8 + len)))) cLENGTH t (o + 8 + len)]
    match e with
    | some _ => (e, [], o)
    | none => let r := walkSecs b minor stop n nx t; (r.1, (t, o + 8) :: r.2.1, r.2.2)

/-! ## What the sections give -/

def Img.shape (m : Img) : Coord := ⟨m.fld 1 4 1, m.fld 1 5 1, m.fld 1 6 1⟩
def Img.wrap (m : Img) : BitVec 3 := BitVec.ofNat 3 (m.fld 1 7 1)

/-- PORT_USE; every link in an image older than 1.4 (R378). -/
def Img.portUse (m : Img) : Nat := if m.minor < 4 then 0x3F else m.fld 1 13 1

/-- LINK_MIN_VER; 1.0 in an image older than 1.3 (R378). -/
def Img.linkMin (m : Img) : Nat := if m.minor < 3 then 0x10 else m.fld 1 12 1

/-- The module's job coordinate (R258). -/
def Img.coord (m : Img) (strap : BitVec 10) : Coord :=
  ⟨4 * m.fld 1 8 1 + field strap 1 0, 4 * m.fld 1 9 1 + field strap 3 2, 2 * m.fld 1 10 1 + field strap 5 4⟩

/-- BASE and SIZE of a core's program region in units of 64 KiB (R386). -/
def Img.prog (m : Img) (c : Nat) : Nat × Nat := (m.fld 3 (4 * c) 2, m.fld 3 (4 * c + 2) 2)

/-- First byte and length of a core's program region. -/
def Img.progSpan (m : Img) (c : Nat) : Nat × Nat := (sliceBase c + (m.prog c).1 * 65536, (m.prog c).2 * 65536)

def Img.touchesProg (m : Img) (a n : Nat) : Bool := (upto 96).any fun c => let p := m.progSpan c; overlap a n p.1 p.2

/-- Offsets of the code blobs. -/
def Img.blobs (m : Img) : List Nat :=
  match m.body 3 with
  | none => []
  | some o => (blobsAt m.b (m.at_ (o + 0x180) 2) (o + 0x188)).1

/-- A region entry (R168, R387). -/
def Img.region (m : Img) (o : Nat) : Region :=
  { base := m.at_ o 2, size := m.at_ (o + 2) 2, policy := m.at_ (o + 4) 1, target := m.at_ (o + 5) 1, offset := m.at_ (o + 6) 1
    carrier := (m.at_ (o + 7) 1).testBit 0 }

/-- The region table that the image brings; that of R171 where it has none (R387, R396). -/
def Img.regions (m : Img) : List Region :=
  match m.body 4 with
  | none => [{ size := 2304 }]
  | some o => let n := m.at_ o 1; if n = 0 then [{ size := 2304 }] else (upto n).map fun i => m.region (o + 8 + 16 * i)

/-- Length of the ring on an axis, 1 for axis 3 (R197). -/
def Img.ring (m : Img) (a : Nat) : Nat := if a = 3 then 1 else m.shape.get a

def Img.descCount (m : Img) : Nat := m.fld 5 4 2
def Img.bktCount (m : Img) : Nat := m.fld 5 6 2
def Img.descOffset (m : Img) (d : Nat) : Nat := (m.body 5).getD 0 + 16 + 192 * d
def Img.bktOffset (m : Img) (i : Nat) : Nat := (m.body 5).getD 0 + 16 + 192 * m.descCount + 32 * i

/-- A bucket entry (R197). -/
def Img.bucket (m : Img) (i : Nat) : Bucket :=
  let o := m.bktOffset i
  let d := m.at_ (o + 0x18) 2
  let c := m.at_ (o + 0x14) 4
  { base := m.at_ o 8, result := m.at_ (o + 8) 8, len := m.at_ (o + 0x10) 4, contrib := m.at_ (m.descOffset d + 8) 4
    expected := c % 2 ^ 24, guard := c / 2 ^ 24 % 32, desc := d, group := m.at_ (o + 0x1A) 2, axis := m.at_ (o + 0x1C) 1 % 4
    localAdds := m.at_ (o + 0x1D) 1, flushLimit := m.at_ (o + 0x1E) 2 }

/-- The buckets of the image by number. -/
def Img.buckets (m : Img) : List Bucket := (upto m.bktCount).map m.bucket

/-- The contributors that the buckets of a descriptor add up to; none where no bucket names it (R199). -/
def Img.derived (m : Img) (bs : List Bucket) (d : Nat) : Option Nat :=
  let xs := (bs.filter fun b => b.desc == d).map fun b => b.expected * b.localAdds * m.ring b.axis
  if xs = [] then none else some (xs.foldl max 0)

/-! ## Extents -/

/-- Whether the bytes from `a` to `e` are covered by regions without a gap. -/
def coveredTo (rs : List Region) (e : Nat) : Nat → Nat → Bool
  | 0, a => decide (e ≤ a)
  | d + 1, a =>
    if e ≤ a then true
    else match regionAt rs a with
      | none => false
      | some r => coveredTo rs e d (r.lo + r.size * unit256)

/-- Whether `n` bytes from `a` lie in one region of R165 under a region table. -/
def inOneRegion (rs : List Region) (a n : Nat) : Bool :=
  match regionClass rs a, regionClass rs (a + n - 1) with
  | some x, some y => decide (0 < n) && x == y && (x != 98 || coveredTo rs (a + n) 17 a)
  | _, _ => false

/-- Whether `n` bytes from `a` lie in one carrier region. -/
def inCarrier (rs : List Region) (a n : Nat) : Bool := rs.any fun r => r.carrier && inside a n r.lo (r.size * unit256)

/-! ## Checks of the sections, in ascending offset (R380 step 6) -/

/-- A field check of section `t`. -/
def fc (t : Nat) (ok : Bool) (off : Nat) : Option ImgErr := chk ok cFIELD t off

/-- An offset in the commons of half 0 of the alignment its field asks for (R385, R388 to R390, R393; log 43). -/
def offOk (v k : Nat) : Bool := decide (v < 0x40000000) && v % k == 0

/-- The reserved fields of a section header: one of 1 B and FLAGS (R375). -/
def Img.checkHead (m : Img) (t o : Nat) : Option ImgErr :=
  firstErr [fc t (m.zero (o - 7) 1) (o - 7), fc t (m.zero (o - 6) 2) (o - 6)]

/-- IDENTITY (R254, R258, R384). -/
def Img.checkIdentity (m : Img) (strap : BitVec 10) (fault : Bool) (o : Nat) : Option ImgErr :=
  let f := fun i => m.at_ (o + i) 1
  let sh := m.shape
  let c := m.coord strap
  let kinds := [f 11 % 4, f 11 / 4 % 4, f 11 / 16 % 4]
  let ax := fun (n k : Nat) => decide (k ≤ n) && decide (n ≤ 64) && n % k == 0
  firstErr [
    fc 1 (ax sh.x 4 && decide (sh.x * sh.y * sh.z ≤ 6144)) (o + 4), fc 1 (ax sh.y 4) (o + 5), fc 1 (ax sh.z 2) (o + 6),
    fc 1 (decide (f 7 < 8)) (o + 7),
    fc 1 (fault || decide (c.x < sh.x)) (o + 8), fc 1 (fault || decide (c.y < sh.y)) (o + 9), fc 1 (fault || decide (c.z < sh.z)) (o + 10),
    fc 1 (decide (f 11 < 64) && kinds.contains 0 && kinds.contains 1 && kinds.contains 2) (o + 11),
    chk (decide (3 ≤ m.minor) || f 12 == 0) cVERSION 1 (o + 12),
    fc 1 (decide (m.minor < 3) || (decide (0x10 ≤ f 12) && decide (f 12 ≤ 0x13))) (o + 12),
    chk (decide (4 ≤ m.minor) || f 13 == 0) cVERSION 1 (o + 13), fc 1 (decide (f 13 < 64)) (o + 13)]

/-- PARTITION (R385). -/
def Img.checkPartition (m : Img) (o : Nat) : Option ImgErr :=
  firstErr (
    [fc 2 (decide (m.at_ (o + 1) 1 < 16)) (o + 1), fc 2 (m.at_ (o + 2) 2 != 0) (o + 2), fc 2 (offOk (m.at_ (o + 4) 4) 4096) (o + 4)]
      ++ (upto 24).map fun i => fc 2 ((upto 4).all fun k => m.at_ (o + 8 + i) 1 / 4 ^ k % 4 != 3) (o + 8 + i))

/-- The cores of a blob at `x`. -/
def Img.blobCores (m : Img) (x : Nat) : List Nat := (upto 96).filter fun c => (m.at_ x 12).testBit c

/-- PROGRAM (R386). -/
def Img.checkProgram (m : Img) (o : Nat) : Option ImgErr :=
  let bs := m.blobs
  let place := fun x => (m.at_ (x + 16) 4, m.at_ (x + 20) 4)
  firstErr (
    ((upto 96).map fun c => fc 3 (decide ((m.prog c).1 + (m.prog c).2 ≤ 1024)) (o + 4 * c))
      ++ [fc 3 (m.zero (o + 0x182) 6) (o + 0x182)]
      ++ bs.flatMap fun x =>
        let p := place x
        let cs := m.blobCores x
        [fc 3 (m.zero (x + 12) 4) (x + 12),
         fc 3 (p.1 % 8 == 0 && cs.all fun c => inside p.1 p.2 ((m.prog c).1 * 65536) ((m.prog c).2 * 65536)) (x + 16),
         chk (bs.all fun y => decide (x ≤ y) || !(cs.any fun c => (m.blobCores y).contains c)
           || !(overlap p.1 p.2 (place y).1 (place y).2)) cOVERLAP 3 (x + 16),
         fc 3 (m.zero (x + 24 + p.2) (pad8 p.2 - p.2)) (x + 24 + p.2)])

/-- The bytes that a region takes on each of its stacks, metadata included (R170). -/
def Region.taken (r : Region) : Nat := r.span + (if r.carrier then r.span / 64 else 0)

/-- Two regions meet in module addresses. -/
def Region.meets (r q : Region) : Bool := overlap r.base r.size q.base q.size

/-- Two regions meet on a stack. -/
def Region.meetsOn (r q : Region) : Bool :=
  ((upto r.w).any fun i => (q.entry (r.stack i)).isSome) && overlap (r.offset * unit256) r.taken (q.offset * unit256) q.taken

/-- MEMORY (R168, R170, R387). -/
def Img.checkMemory (m : Img) (o : Nat) : Option ImgErr :=
  let n := m.at_ o 1
  let rs := (upto n).map fun i => m.region (o + 8 + 16 * i)
  firstErr (
    [fc 4 (decide (n ≤ 16)) o, fc 4 (m.zero (o + 1) 7) (o + 1)]
      ++ (upto n).flatMap fun i =>
        let x := o + 8 + 16 * i
        let r := m.region x
        let old := rs.take i
        [fc 4 (decide (r.base < 2304)) x, chk (!(old.any r.meets)) cOVERLAP 4 x,
         fc 4 (r.size != 0 && r.size % r.w == 0 && decide (r.base + r.size ≤ 2304)) (x + 2), fc 4 (decide (r.policy < 3)) (x + 4),
         fc 4 (decide (r.target < (if r.policy = 0 then 1 else if r.policy = 1 then 2 else 12))) (x + 5),
         fc 4 (decide (r.offset < 192) && decide (r.offset * unit256 + r.taken ≤ 192 * unit256)) (x + 6),
         chk (!(old.any r.meetsOn)) cOVERLAP 4 (x + 6),
         fc 4 (decide (m.at_ (x + 7) 1 < 2)) (x + 7), fc 4 (m.zero (x + 8) 8) (x + 8)])

/-- A finite binary32 code. -/
def finite32 (v : Nat) : Bool := !(nonfin32 v)

/-- The scale range of the signed bytes of R191 and R239: from -126 to `hi`. -/
def scaleByte (v hi : Nat) : Bool := decide (-126 ≤ sgn 8 v) && decide (sgn 8 v ≤ (hi : Int))

/-- A scale descriptor at `x` (R191, R199). -/
def Img.checkDesc (m : Img) (bs : List Bucket) (d x : Nat) : List (Option ImgErr) :=
  let f := fun i n => m.at_ (x + i) n
  let car := f 0 1 == 1
  let depth := f 2 1
  let pin := (f 6 1).testBit 1
  let need := m.derived bs d
  let contrib := !car || (match need with
    | none => false
    | some n => decide (n ≤ 16777216) && (!pin || decide (n ≤ f 8 4)))
  [fc 5 (decide (f 0 1 < 2)) x, fc 5 (if car then f 1 1 == 8 else f 1 1 == 3 || f 1 1 == 4) (x + 1),
   fc 5 (decide (1 ≤ depth) && decide (depth ≤ 32)) (x + 2), fc 5 (decide (f 3 1 < 16)) (x + 3), fc 5 (scaleByte (f 4 1) 127) (x + 4),
   fc 5 (decide (f 5 1 < 8)) (x + 5), chk (decide (2 ≤ m.minor) || !pin) cVERSION 5 (x + 6), fc 5 (decide (f 6 1 < 4)) (x + 6),
   fc 5 (if car then decide (1 ≤ f 7 1) && decide (f 7 1 < 16) else f 7 1 == 0) (x + 7),
   fc 5 (contrib && (if car then !pin || (decide (1 ≤ f 8 4) && decide (f 8 4 ≤ 16777216)) else f 8 4 == 0)) (x + 8),
   fc 5 (decide (f 0xD 1 < depth)) (x + 0xD), fc 5 (decide (f 0xE 1 ≤ depth)) (x + 0xE), fc 5 (f 0xF 1 == 0) (x + 0xF),
   fc 5 (decide (f 0x14 1 < 2)) (x + 0x14), fc 5 (car || f 0x15 1 == 0) (x + 0x15), fc 5 (f 0x16 2 == 0) (x + 0x16)]
    ++ (upto 32).map (fun k =>
      let v := f (0x20 + 4 * k) 4
      fc 5 (decide (v < 2 ^ 31) && finite32 v && (decide (k < depth) || v == 0)) (x + 0x20 + 4 * k))
    ++ [fc 5 (m.zero (x + 0xA0) 32) (x + 0xA0)]

/-- The extents of a bucket: first byte, length (R197). -/
def Img.extents (m : Img) (b : Bucket) : List (Nat × Nat) := [(b.base, b.len), (b.result, b.len / m.ring b.axis)]

/-- Whether an extent meets one of a list. -/
def meetsAny (e : Nat × Nat) (es : List (Nat × Nat)) : Bool := es.any fun x => overlap e.1 e.2 x.1 x.2

/-- A bucket entry (R197, R198). -/
def Img.checkBucket (m : Img) (rs : List Region) (bs : List Bucket) (i : Nat) : List (Option ImgErr) :=
  let x := m.bktOffset i
  let b := m.bucket i
  let q := m.ring b.axis
  let old := (bs.take i).flatMap m.extents
  let dx := m.descOffset b.desc
  [fc 5 (b.base % 4096 == 0 && inCarrier rs b.base b.len) x, chk (!(meetsAny (b.base, b.len) old)) cOVERLAP 5 x,
   fc 5 (b.result % 256 == 0 && inCarrier rs b.result (b.len / q)) (x + 8),
   chk (!(meetsAny (b.result, b.len / q) ((b.base, b.len) :: old))) cOVERLAP 5 (x + 8),
   fc 5 (b.len % 4096 == 0 && b.len % (256 * q) == 0 && decide (4096 ≤ b.len) && decide (b.len ≤ 0x4000000)) (x + 0x10),
   fc 5 (decide (1 ≤ b.expected) && b.guard == ceilLog2 b.expected && decide (m.at_ (x + 0x14) 4 < 2 ^ 29)) (x + 0x14),
   fc 5 (decide (b.desc < m.descCount) && m.at_ dx 1 == 1) (x + 0x18), fc 5 (decide (b.group < 1024)) (x + 0x1A),
   fc 5 (decide (m.at_ (x + 0x1C) 1 < 4) && (b.axis == 3 || (m.at_ (dx + 5) 1).testBit b.axis)) (x + 0x1C),
   fc 5 (b.localAdds != 0) (x + 0x1D)]

/-- SCALE (R191, R197 to R199, R388). -/
def Img.checkScale (m : Img) (o : Nat) : Option ImgErr :=
  let bs := m.buckets
  let rs := m.regions
  firstErr (
    [fc 5 (offOk (m.at_ o 4) 64) o, fc 5 (decide (m.descCount ≤ 8192)) (o + 4), fc 5 (decide (m.bktCount ≤ 4095)) (o + 6),
     fc 5 (m.zero (o + 8) 8) (o + 8)]
      ++ (upto m.descCount).flatMap (fun d => m.checkDesc bs d (m.descOffset d))
      ++ (upto m.bktCount).flatMap (m.checkBucket rs bs))

/-- Places of the parts of an UPDATE body: bank sets, coefficient entries, curves (R389). -/
def Img.bankAt (m : Img) (i : Nat) : Nat := (m.body 6).getD 0 + 32 + 24 * i
def Img.coefAt (m : Img) (g : Nat) : Nat := m.bankAt (m.fld 6 24 1) + 64 * g
def Img.curveAt (m : Img) (c : Nat) : Nat := m.coefAt (m.fld 6 20 2) + 1040 * c

def Img.banks (m : Img) : List BankSet :=
  (upto (m.fld 6 24 1)).map fun i => let x := m.bankAt i; ⟨m.at_ x 8, m.at_ (x + 8) 8, m.at_ (x + 16) 8⟩

/-- A coefficient entry at `x` (R239, R240). -/
def Img.checkCoef (m : Img) (x : Nat) : List (Option ImgErr) :=
  let f := fun i n => m.at_ (x + i) n
  let rule := f 0 1
  let sec := rule.testBit 1
  let tru := rule.testBit 2
  let curves := m.fld 6 22 2
  let co := fun (o : Nat) (used : Bool) (ok : Bool) => fc 6 (finite32 (f o 4) && (used || f o 4 == 0) && ok) (x + o)
  let neg := fun (v : Nat) => decide (2 ^ 31 < v)
  let nan := fun (v : Nat) => decide (0x7F800000 < v % 2 ^ 31)
  if !(rule.testBit 7) then [fc 6 (m.zero x 64) x]
  else
    [fc 6 (rule / 8 % 16 == 0 && !(rule.testBit 0 && sec)) x, fc 6 (decide (f 1 1 < 3)) (x + 1), fc 6 (scaleByte (f 2 1) 85 && (tru || f 2 1 == 0)) (x + 2),
     fc 6 (scaleByte (f 3 1) 85 && (tru || f 3 1 == 0)) (x + 3), fc 6 (f 4 1 &&& 0xFA == 0 && (tru || f 4 1 == 0)) (x + 4), fc 6 (m.zero (x + 5) 3) (x + 5),
     co 0x08 true true, co 0x0C true true, co 0x10 true true, co 0x14 true true, co 0x18 sec true, co 0x1C sec true,
     co 0x20 sec (!(neg (f 0x20 4))),
     co 0x24 tru (!(neg (f 0x24 4)) && (nan (f 0x28 4) || (!(neg (f 0x28 4)) && decide (f 0x24 4 % 2 ^ 31 ≤ f 0x28 4 % 2 ^ 31)))),
     co 0x28 tru true, fc 6 (decide (f 0x2C 2 < curves)) (x + 0x2C), fc 6 (decide (f 0x2E 2 < curves)) (x + 0x2E),
     fc 6 (f 0x30 4 != 0) (x + 0x30), fc 6 (m.zero (x + 0x34) 12) (x + 0x34)]

/-- A curve at `x` (R248). -/
def Img.checkCurve (m : Img) (x : Nat) : List (Option ImgErr) :=
  let n := m.at_ x 1
  let step := fun j => m.at_ (x + 0x10 + 16 * j) 8
  [fc 6 (decide (1 ≤ n) && decide (n ≤ 64)) x, fc 6 (m.zero (x + 1) 15) (x + 1)]
    ++ (upto 64).flatMap fun j =>
      let p := x + 0x10 + 16 * j
      if j < n then
        [fc 6 (decide (step j < 2 ^ 47) && (if j = 0 then step 0 == 0 else decide (step (j - 1) < step j))) p,
         fc 6 (finite32 (m.at_ (p + 8) 4)) (p + 8), fc 6 (decide (m.at_ (p + 12) 1 < 2)) (p + 12), fc 6 (m.zero (p + 13) 3) (p + 13)]
      else [fc 6 (m.zero p 16) p]

/-- UPDATE (R240, R248, R389). -/
def Img.checkUpdate (m : Img) (o : Nat) : Option ImgErr :=
  let rs := m.regions
  let bks := m.banks
  let ok := fun (a n : Nat) => inOneRegion rs a (max n 1) && !(m.touchesProg a n)
  firstErr (
    [fc 6 (offOk (m.at_ (o + 8) 4) 64) (o + 8), fc 6 (offOk (m.at_ (o + 12) 4) 64) (o + 12), fc 6 (offOk (m.at_ (o + 16) 4) 4096) (o + 16),
     fc 6 (decide (m.at_ (o + 20) 2 ≤ 1024)) (o + 20), fc 6 (decide (m.at_ (o + 22) 2 ≤ 2048)) (o + 22),
     fc 6 (decide (m.at_ (o + 24) 1 ≤ 16)) (o + 24), fc 6 (m.zero (o + 25) 7) (o + 25)]
      ++ (upto (m.at_ (o + 24) 1)).flatMap (fun i =>
        let x := m.bankAt i
        let k := nth {} bks i
        let old := (bks.take i).flatMap fun y => [(y.copy0, y.len), (y.copy1, y.len)]
        [fc 6 (ok k.copy0 k.len) x, chk (!(meetsAny (k.copy0, k.len) old)) cOVERLAP 6 x, fc 6 (ok k.copy1 k.len) (x + 8),
         chk (!(meetsAny (k.copy1, k.len) ((k.copy0, k.len) :: old))) cOVERLAP 6 (x + 8),
         fc 6 (k.len != 0 && k.len % 256 == 0) (x + 16)])
      ++ (upto (m.at_ (o + 20) 2)).flatMap (fun g => m.checkCoef (m.coefAt g))
      ++ (upto (m.at_ (o + 22) 2)).flatMap (fun c => m.checkCurve (m.curveAt c)))

/-! ## The schedule (R319, R321, R390) -/

/-- Core group `g` of the PARTITION section (R385). -/
def Img.group (m : Img) (g : Nat) : BitVec 96 := BitVec.ofNat 96 (m.fld 2 (0x20 + 12 * g) 12)

def Img.schedAt (m : Img) (i : Nat) : Nat := (m.body 7).getD 0 + 16 + 64 * i

/-- Whether entry `i` is the step action `op`. -/
def Img.isAct (m : Img) (i op : Nat) : Bool := m.at_ (m.schedAt i) 1 == 4 && m.at_ (m.schedAt i + 3) 1 == op

/-- A schedule entry: MUTE stands at `mute`, STRUM at `strum`; `acts` lists, by op, the first entry of each action (R321). -/
def Img.checkEntry (m : Img) (rs : List Region) (n : Nat) (first : Nat → Option Nat) (i : Nat) : List (Option ImgErr) :=
  let x := m.schedAt i
  let f := fun o k => m.at_ (x + o) k
  let k := f 0 1
  let fl := f 1 1
  let op := f 3 1
  let axis := f 2 1 % 4
  let rs_ := k == 1
  let ag := k == 2
  let sc := k == 3
  let act := k == 4
  let ring := m.ring axis
  let bkt := m.bucket (f 4 2)
  let bank := fl.testBit 3
  let src := fl.testBit 4
  let len := f 0x18 4
  let addr := f 0x10 8
  let chunk := f 9 1
  let mute := (first 2).getD n
  let ended := (upto i).any fun j => m.at_ (m.schedAt j) 1 == 0
  let one := fun (p : Nat) => act && op == p && first p != some i
  let part := if rs_ then bkt.len / ring else len
  let pkts := if sc then ceilDiv len 2048 else ceilDiv part (256 * chunk)
  let array := if bank then decide (addr + ring * len ≤ (nth {} m.banks (f 6 1)).len)
    else inOneRegion rs addr (ring * len) && !(m.touchesProg addr (ring * len))
  let commons := decide (commonsBase ≤ addr) && decide (addr + len ≤ commonsBase + 0x80000000)
    && (addr - commonsBase) / 0x40000000 == (addr + len - 1 - commonsBase) / 0x40000000
  if i == 0 && k == 0 then [fc 7 false x]
  else if ended || k == 0 then [fc 7 (m.zero x 64) x]
  else
    [fc 7 (decide (k < 5) && (i != 0 || act)) x,
     fc 7 (decide (fl < 32) && (!(fl.testBit 2) || decide (i ≤ mute)) && (!act || fl.testBit 1) && (!(fl.testBit 0) || rs_)
       && (!(bank || src) || ag) && !(bank && src)) (x + 1),
     fc 7 (decide (f 2 1 < 8) && (!(rs_ || ag) || (decide (axis < 3) && m.wrap.getLsbD axis))
       && (!act || f 2 1 == 0)) (x + 2),
     fc 7 ((i != 0 || op == 0) && (!sc || decide (op < 5)) && (!act || decide (op < 4)) && (sc || act || op == 0) && !(one 1) && !(one 2) && !(one 3)
       && (!(act && op == 1) || decide (i < mute))
       && (!(act && op == 3) || (decide (mute < i) && (i == 4094 || i + 1 == n || m.at_ (m.schedAt (i + 1)) 1 == 0)))) (x + 3),
     fc 7 (if rs_ || (ag && src) then decide (f 4 2 < m.bktCount) && (!rs_ || bkt.axis == axis)
       else if act && op == 1 then decide (1 ≤ f 4 2) && decide (f 4 2 ≤ i) else f 4 2 == 0) (x + 4),
     fc 7 (if ag && bank then decide (f 6 1 < m.fld 6 24 1) else f 6 1 == 0) (x + 6),
     fc 7 (f 7 1 == 0xFF || (decide (f 7 1 < 16) && m.group (f 7 1) != 0)) (x + 7),
     fc 7 (decide (f 8 1 < 32) && (!((f 8 1).testBit 4) || (!act && f 8 1 % 16 != m.fld 2 1 1))) (x + 8),
     fc 7 (if rs_ || ag then decide (1 ≤ chunk) && decide (chunk ≤ 32) else chunk == 0) (x + 9), fc 7 (m.zero (x + 10) 2) (x + 10),
     fc 7 (f 0xC 4 == (if act then (if op = 2 ∨ op = 3 then 1 else 0) else pkts)) (x + 0xC),
     fc 7 ((ag || sc || addr == 0) && (!ag || array) && (!sc || (if op = 4 then addr == 0 else addr % 256 == 0 && commons))) (x + 0x10),
     fc 7 ((ag || sc || len == 0) && (!(ag && src) || len == bkt.len / m.ring bkt.axis)
       && (!sc || (if op = 4 then len == 256 else len % 256 == 0 && decide (256 ≤ len) && decide (len ≤ 65536)))) (x + 0x18),
     fc 7 (m.zero (x + 0x1C) 36) (x + 0x1C)]

/-- COLLECTIVE (R321, R390). The manual gives no OFFSET for an action that is absent; `free` stands for it (log 31). -/
def Img.checkCollective (m : Img) (free o : Nat) : Option ImgErr :=
  let n := m.at_ (o + 8) 2
  let rs := m.regions
  let first := fun op => (upto n).find? fun i => m.isAct i op
  firstErr (
    [fc 7 (offOk (m.at_ o 4) 4096) o, fc 7 (offOk (m.at_ (o + 4) 4) 4096) (o + 4),
     fc 7 (decide (1 ≤ n) && decide (n ≤ 4095)) (o + 8),
     fc 7 (m.at_ (o + 10) 2 != 0) (o + 10), fc 7 (m.at_ (o + 12) 2 != 0) (o + 12), fc 7 (m.zero (o + 14) 2) (o + 14)]
      ++ (upto n).flatMap (m.checkEntry rs n first)
      ++ [fc 7 ((first 2).isSome && (first 3).isSome) free])

/-! ## ROUTE to POWER (R391 to R394) -/

/-- ROUTE (R309, R391, R317). -/
def Img.checkRoute (m : Img) (o : Nat) : Option ImgErr :=
  let f := fun i n => m.at_ (o + i) n
  let sh := m.shape
  let rng := fun (v a b : Nat) => decide (a ≤ v) && decide (v ≤ b)
  firstErr (
    [fc 8 (decide (f 0 1 < sh.x)) o, fc 8 (decide (f 1 1 < sh.y)) (o + 1), fc 8 (decide (f 2 1 < sh.z)) (o + 2), fc 8 (f 3 1 == 0) (o + 3),
     fc 8 (rng (f 4 2) 1 4095) (o + 4), fc 8 (f 6 1 != 0) (o + 6), fc 8 (rng (f 7 1) 1 8) (o + 7), fc 8 (rng (f 9 1) 1 4) (o + 9),
     fc 8 (f 10 1 != 0) (o + 10), fc 8 (f 11 1 != 0) (o + 11), fc 8 (f 14 2 != 0) (o + 14),
     fc 8 (decide (f 16 2 ≤ sh.x * sh.y * sh.z)) (o + 16), fc 8 (m.zero (o + 18) 6) (o + 18)]
      ++ (upto (f 16 2)).map fun i => fc 8 (decide (f (24 + 2 * i) 2 < 16)) (o + 24 + 2 * i))

/-- CLOCK (R392). -/
def Img.checkClock (m : Img) (o : Nat) : Option ImgErr :=
  let src := m.at_ o 1
  let l := m.at_ (o + 1) 1
  firstErr [
    fc 9 (decide (src < 3)) o, fc 9 (if src = 2 then decide (l < 6) && m.portUse.testBit l else l == 0) (o + 1),
    fc 9 (decide (m.at_ (o + 2) 1 < 2)) (o + 2), fc 9 (m.zero (o + 3) 5) (o + 3)]

/-- EVENTS (R393). -/
def Img.checkEvents (m : Img) (o : Nat) : Option ImgErr :=
  let f := fun i n => m.at_ (o + i) n
  let n := f 4 4
  firstErr (
    [fc 10 (offOk (f 0 4) 4096) o, fc 10 (decide (1024 ≤ n) && decide (n ≤ 1048576) && 2 ^ ceilLog2 n == n) (o + 4),
     fc 10 (decide (10 ≤ f 8 2) && decide (f 8 2 ≤ 1000)) (o + 8), fc 10 (decide (f 10 1 < 2)) (o + 10), fc 10 (f 11 1 == 0) (o + 11),
     fc 10 (offOk (f 12 4) 4096) (o + 12), fc 10 (f 16 4 % 4096 == 0) (o + 16), fc 10 (f 22 2 != 0) (o + 22)]
      ++ (upto 8).map fun i => fc 10 (f (24 + 2 * i) 2 != 0) (o + 24 + 2 * i))

/-- POWER (R394). -/
def Img.checkPower (m : Img) (o : Nat) : Option ImgErr :=
  let f := fun i n => m.at_ (o + i) n
  firstErr [
    fc 11 (decide (f 0 1 < 2)) o, fc 11 (f 1 1 != 0) (o + 1), fc 11 (f 2 1 != 0) (o + 2), fc 11 (decide (f 4 1 < 2)) (o + 4),
    fc 11 (f 5 1 != 0) (o + 5), fc 11 (f 6 2 != 0) (o + 6), fc 11 (decide (f 8 1 < 2)) (o + 8), fc 11 (decide (f 9 1 < 64)) (o + 9),
    fc 11 (f 10 1 != 0) (o + 10), fc 11 (m.zero (o + 11) 5) (o + 11)]

/-- The contents of the sections in TYPE order. -/
def Img.checkBodies (m : Img) (strap : BitVec 10) (fault : Bool) (free : Nat) : Option ImgErr :=
  firstErr (m.secs.flatMap fun p =>
    let o := p.2
    [m.checkHead p.1 o,
     if p.1 = 1 then m.checkIdentity strap fault o
     else if p.1 = 2 then m.checkPartition o
     else if p.1 = 3 then m.checkProgram o
     else if p.1 = 4 then m.checkMemory o
     else if p.1 = 5 then m.checkScale o
     else if p.1 = 6 then m.checkUpdate o
     else if p.1 = 7 then m.checkCollective free o
     else if p.1 = 8 then m.checkRoute o
     else if p.1 = 9 then m.checkClock o
     else if p.1 = 10 then m.checkEvents o
     else m.checkPower o])

/-! ## Placement (R381, R395) -/

/-- An area in the commons of half 0: its section, the field that places it, whether the load writes it, offset and length. -/
structure Area where
  sec : Nat
  field : Nat
  written : Bool
  off : Nat
  len : Nat
  deriving DecidableEq, Repr

/-- The areas of an image in TYPE order. -/
def Img.areas (m : Img) : List Area :=
  let put := fun (t : Nat) (l : Nat → List Area) => match m.body t with | none => [] | some o => l o
  put 2 (fun o => [⟨2, o + 4, true, m.at_ (o + 4) 4, 4096⟩])
    ++ put 5 (fun o => [⟨5, o, true, m.at_ o 4, 192 * m.descCount⟩])
    ++ put 6 (fun o =>
      [⟨6, o + 8, true, m.at_ (o + 8) 4, 65536⟩, ⟨6, o + 12, true, m.at_ (o + 12) 4, 2129920⟩, ⟨6, o + 16, true, m.at_ (o + 16) 4, 262144⟩])
    ++ put 7 (fun o => [⟨7, o, true, m.at_ o 4, 262144⟩, ⟨7, o + 4, true, m.at_ (o + 4) 4, 4096⟩])
    ++ put 10 (fun o =>
      [⟨10, o, false, m.at_ o 4, 32 * m.at_ (o + 4) 4⟩, ⟨10, o + 12, false, m.at_ (o + 12) 4, m.at_ (o + 16) 4⟩])

/-- The check of one area against those before it and the image at `a`. -/
def checkArea (a n : Nat) (old : List Area) (x : Area) : Option ImgErr :=
  let free := decide (x.len = 0) || decide (x.off + x.len ≤ 0x40000000)
  chk (free && !(old.any fun y => overlap x.off x.len y.off y.len) && !(x.written && overlap (commonsBase + x.off) x.len a n))
    cOVERLAP x.sec x.field

/-- Checks of areas one after another. -/
def checkAreas (a n : Nat) : List Area → List Area → Option ImgErr
  | _, [] => none
  | old, x :: r =>
    match checkArea a n old x with
    | some e => some e
    | none => checkAreas a n (old ++ [x]) r

/-- Placement across sections of an image of `n` bytes at `a`; the program regions it writes come with PROGRAM. -/
def Img.checkPlaces (m : Img) (a n : Nat) : Option ImgErr :=
  let as_ := m.areas
  let progs := (upto 96).map fun c =>
    let p := m.progSpan c
    chk (!(overlap p.1 p.2 a n)) cOVERLAP 3 ((m.body 3).getD 0 + 4 * c)
  firstErr [checkAreas a n [] (as_.filter fun x => decide (x.sec < 3)), firstErr progs,
    checkAreas a n (as_.filter fun x => decide (x.sec < 3)) (as_.filter fun x => decide (3 < x.sec))]

end Sys2Proof.Machine
end

