-- ==== Sys2Proof/Machine/ImgFill.lean ====
section
/-! DEFINITION. What a load writes in memory, in its order (R238, R382). -/

namespace Sys2Proof.Machine

/-! ## The half-cosine weights (R238) -/

/-- pi in units of 2^-200. -/
def piFix : Nat := 0x3243f6a8885a308d313198a2e03707344a4093822299f31d008

/-- Terms of the sine series from term `t` of order `k`, in units of 2^-200, with its square `y2`. -/
def sinTail (y2 : Int) : Nat → Nat → Int → Int
  | 0, _, _ => 0
  | n + 1, k, t => t + sinTail y2 n (k + 2) (-(t * y2 / (2 ^ 200 : Nat)) / (((k + 1) * (k + 2) : Nat) : Int))

/-- Entry `i` of the half-cosine weight table: (1 - cos(pi i / 65536)) / 2, the square of the sine of half the angle. -/
def halfCos (i : Nat) : Nat :=
  let y : Int := (piFix * i / 131072 : Nat)
  let s := (sinTail (y * y / (2 ^ 200 : Nat)) 40 1 y).toNat
  rb32 (.num false (s * s) (-400))

def halfCosBytes : List Byte := (upto 65536).flatMap fun i => leBytes 4 (halfCos i)

/-! ## The writes (R382) -/

def Img.bytes (m : Img) (o n : Nat) : List Byte := slice m.b o n

/-- The descriptor table as it is placed: CONTRIB of a carrier descriptor is the derived one unless it is pinned (R199). -/
def Img.descTable (m : Img) : List Byte :=
  let bs := m.buckets
  (upto m.descCount).flatMap fun d =>
    let x := m.descOffset d
    let own := m.at_ x 1 == 1 && !((m.at_ (x + 6) 1).testBit 1)
    m.bytes x 8 ++ (if own then leBytes 4 ((m.derived bs d).getD 0) else m.bytes (x + 8) 4) ++ m.bytes (x + 12) 180

/-- One write of a load: its first byte, its length, the bytes it begins with; zeros follow them. -/
structure Fill where
  addr : Nat
  len : Nat
  data : List Byte := []
  deriving DecidableEq, Repr

/-- The tables of the commons (step 1). -/
def Img.tables (m : Img) : List Fill :=
  let put := fun (t : Nat) (l : List Fill) => if (m.body t).isSome then l else []
  let at_ := fun (t o : Nat) => commonsBase + m.fld t o 4
  [{ addr := at_ 2 4, len := 4096 }]
    ++ put 5 [⟨at_ 5 0, 192 * m.descCount, m.descTable⟩]
    ++ put 6 [⟨at_ 6 8, 65536, m.bytes (m.coefAt 0) (64 * m.fld 6 20 2)⟩, ⟨at_ 6 12, 2129920, m.bytes (m.curveAt 0) (1040 * m.fld 6 22 2)⟩,
      ⟨at_ 6 16, 262144, halfCosBytes⟩]
    ++ put 7 [⟨at_ 7 0, 262144, m.bytes (m.schedAt 0) (64 * m.fld 7 8 2)⟩, { addr := at_ 7 4, len := 4096 }]

/-- The program regions are zero, then the code blobs are written (step 2). -/
def Img.code (m : Img) : List Fill :=
  ((upto 96).map fun c => let p := m.progSpan c; { addr := p.1, len := p.2 })
    ++ m.blobs.flatMap fun x =>
      let n := m.at_ (x + 20) 4
      (m.blobCores x).map fun c => ⟨sliceBase c + m.at_ (x + 16) 4, n, m.bytes (x + 24) n⟩

/-- Every write of a load in its order. -/
def Img.fills (m : Img) : List Fill := m.tables ++ m.code

/-- One write is made; whole words are written, so errors there are gone. -/
def State.fill (s : State) (f : Fill) : State :=
  let out := fun (k : Nat) => decide (k < f.addr) || decide (f.addr + f.len ≤ k)
  { s with
    mem := writeKeys (s.mem.filter fun p => out p.1) f.addr (f.data.take f.len)
    ecc := s.ecc.filter fun e => out e.key }

/-- Writes of a load are made. -/
def State.fillAll (s : State) (l : List Fill) : State := l.foldl State.fill s

end Sys2Proof.Machine
end

