-- ==== Sys2Proof/Machine/CtlOps.lean ====
section
/-! DEFINITION. Sessions, responses, the owner record and HELD (R350 to R371), and how a command of the queue is executed
(R360, R361). -/

namespace Sys2Proof.Machine

def State.modCtl (s : State) (f : CtlSt → CtlSt) : State := { s with ctl := f s.ctl }

/-- A frame or value leaves the module. -/
def State.emit (s : State) (m : OutMsg) : State := s.modCtl fun k => { k with out := k.out ++ [m] }

/-! ## Sessions (R352 to R357) -/

def State.sess (s : State) (i : Nat) : SessSt := mapGet {} s.ctl.sess i
def State.modSess (s : State) (i : Nat) (f : SessSt → SessSt) : State :=
  s.modCtl fun k => { k with sess := mapMod {} k.sess i f }

/-- The last `n` elements of a list. -/
def lastN {α : Type} (n : Nat) (l : List α) : List α := l.drop (l.length - n)

/-- The slot of an open session. -/
def State.slotOf (s : State) (id : DWord) : Option Nat :=
  (upto 16).find? fun i => decide ((s.sess i).st = .open_) && decide ((s.sess i).id = id)

/-- A change of the record goes to the follower (R364). -/
def State.sendMirror (s : State) (p : MirrorPend) : State := s.modCtl fun k => { k with pend := some { p with at_ := s.now } }

/-- Whether a record names a session that is no longer open. -/
def State.ownGone (s : State) (o : OwnRec) : Bool :=
  match o.sess with
  | none => false
  | some i => !(decide ((s.sess i).st = .open_) && decide ((s.sess i).id = o.sid))

/-- The record without a session. -/
def OwnRec.unbound (o : OwnRec) : OwnRec := { o with sess := none, sid := 0 }

/-- A record whose session has closed names none: a change that awaits the follower names none from now on, otherwise a new
mirror goes out (R355, R364). A HANDOVER in flight is refused instead as it is acknowledged (R370). -/
def State.unbindOwner (s : State) : State :=
  match s.ctl.pend with
  | some p =>
    if s.ownGone p.new_ && p.target.isNone then s.modCtl fun k => { k with pend := some { p with new_ := p.new_.unbound } } else s
  | none => if s.ownGone s.ctl.own then s.sendMirror { new_ := s.ctl.own.unbound, at_ := s.now } else s

/-- A session is free again; ownership does not change, but the record is to name no session (R355, R364). An update of a
session at protocol 2.0 or 2.1 is aborted (R460). -/
def State.freeSess (s : State) (i : Nat) : State :=
  let x := s.sess i
  let s0 := s.modCtl fun k => { k with sess := mapSet {} k.sess i {} }
  let s1 := s0.unbindOwner
  match s.sec.fwu.sess with
  | none => s1
  | some (j, id) => if j = i ∧ id = x.id ∧ x.ver.toNat < 0x22 ∧ s.sec.fwu.st ≠ 0 then s1.fwuEnd 2 else s1

/-- Send a tagged frame on an open session: the counter rises; one that would pass its end closes the session (R354). -/
def State.tagged (s : State) (i : Nat) (m : DWord → OutMsg) : State :=
  let x := s.sess i
  if x.cout.toNat = 2 ^ 64 - 1 then s.freeSess i
  else (s.modSess i fun y => { y with cout := y.cout + 1 }).emit (m (x.cout + 1))

/-- Close a session with CLOSE and its reason (R355, R357). -/
def State.closeSess (s : State) (i reason : Nat) : State :=
  let x := s.sess i
  if x.st = .open_ then (s.tagged i fun c => .close x.peer c reason).freeSess i
  else if x.st = .setup then s.freeSess i
  else s

/-- Respond to a command whose session is still open, and keep the response (R357). -/
def State.respond (s : State) (c : Cmd) (status : Nat) (data : List Byte := []) : State :=
  let x := s.sess c.slot
  if x.st = .open_ ∧ x.id = c.sid then
    let r : Resp := ⟨c.op, c.reqId, status, s.ctl.own.epoch, data⟩
    (s.modSess c.slot fun y => { y with kept := lastN 64 (y.kept ++ [r]) }).tagged c.slot fun n => .resp x.peer n r
  else s

/-! ## A load cut off (R383, R396) -/

/-- What stood in the ring or the trace buffer and was not sent yet is lost to its session: a GAP of stage 2 (R442, R443). -/
def SessSt.gone (x : SessSt) : SessSt :=
  let f := fun (q : List EvItem) (i : EvItem) =>
    let lose := fun (t : DWord) (c : Nat) =>
      match q with
      | .gap n msk first :: r => EvItem.gap (n + 1) (msk ||| 2 ^ c) first :: r
      | _ => EvItem.gap 1 (2 ^ c) t :: q
    match i with
    | .ring _ _ t c _ => lose t c
    | .trace _ _ t _ => lose t 5
    | _ => i :: q
  { x with queue := (x.queue.foldl f []).reverse }

/-- The ring starts empty at another place; the trace buffer starts at its first entry (R441, R442, R447). -/
def State.ringAt (s : State) (off log2 : Nat) (dflt : Bool) (traceOff traceLen : Nat) : State :=
  let ev := { s.ev with
    wrMain := 0, wrRsv := 0, traceIdx := 0, traceStopped := false, ringOff := off, ringLog2 := log2, defaultRing := dflt
    traceOff := traceOff, traceLen := traceLen }
  { s with ev := ev }.modCtl fun k => { k with sess := mapVals {} k.sess SessSt.gone }

/-- The registers that an image sets (R382, R396). -/
def imgReg (a : Nat) : Bool :=
  [0xB000C, 0xB0010, 0xB0014, 0xA0004, 0xA0008, 0xA000C, 0x90030, 0x90034, 0x90038, 0x50014, 0xB0070, 0x50020, 0x50024, 0x50028,
    0x5002C, 0xCC010].contains a
    || (decide (0x80000 ≤ a) && decide (a < 0x86000) && a % 0x1000 == 0x020)
    || (decide (0xC0000 ≤ a) && decide (a < 0xCC000) && a % 0x1000 == 0x014)
    || (decide (0x20000000 ≤ a) && a % 0x10000 == 0x4050)

/-- Every block holds its value for no image (R383, R396). -/
def State.noImage (s : State) : State :=
  let s1 := { s with
    img := {}, buckets := [], bkt := [], regions := [{ size := 2304 }]
    cores := mapVals {} s.cores fun k => { k with progBase := 0, progSize := 0, arr := { k.arr with mode := 0 } }
    regs := s.regs.filter fun p => !(imgReg p.1)
    col := { s.col with next := [0, 0, 0, 0], runs := [], rel := [], full := 0, drains := [], passing := 0 }
    rt := { s.rt with tbl := [], tblStaged := [], dl := ⟨0, 0, 0⟩, dlStaged := ⟨0, 0, 0⟩, staged := false, lim := [] } }
  s1.ringAt 0x3FFF8000 10 true 0 0

/-- A load is marked as cut, and reported (R383, R399, R440). -/
def State.cutMark (s : State) (l : LoadSt) : State :=
  let s1 := (s.setRaw 0x60000 (setField (s.raw 0x60000) 7 4 5)).bump 0x60064
  (s1.setRaw 0x60068 (BitVec.ofNat 32 ((s.now - l.since) / 1000))).post 0 0x06 0 .error 1 (leBytes 4 (l.img.imgId.toNat % 2 ^ 32))

/-- The writes of a load in progress that were made before it was cut off: how many is a free choice (R383; log 4). -/
def State.cutFill (s : State) : State :=
  match s.ctl.load with
  | none => s
  | some l => (s.fillAll (l.m.fills.take ((Config.freeWord s.freeCtr).toNat % (l.m.fills.length + 1)))).bumpFree 1

/-- Cut off the load in progress, if one is (R370, R383). -/
def State.cutLoad (s : State) (status : Nat) : State :=
  match s.ctl.load with
  | none => s
  | some l => ((s.cutFill.noImage.modCtl fun k => { k with load := none }).cutMark l).respond l.cmd status

/-- A load ends with LAST of FIM_STAT after `us` microseconds (R399). -/
def State.imgEnd (s : State) (last us : Nat) (e : ImgErr) : State :=
  ((((s.setRaw 0x60000 (setField (s.raw 0x60000) 7 4 last)).setRaw 0x60004 (w32 (e.sec * 256 + e.code))).setRaw 0x60008 (w32 e.off)).setRaw
    0x60068 (w32 us)).bump (if last = 1 then 0x60060 else 0x60064)

/-! ## HELD (R369) -/

/-- Whether either half is HELD. -/
def State.isHeld (s : State) : Bool := (s.half 0).held || (s.half 1).held

/-- Half `h` enters HELD for a cause: the lease is suspended, the owner is told, a load is cut, debug mode ends (R365,
R369, R383, R468). The lead posts the event; while its half is in reset there is none to post it (R369). -/
def State.enterHeld (s0 : State) (h : Nat) (cause : BitVec 5) : State :=
  let s := s0.cutLoad stHeld
  let was := s.isHeld
  let old := (s.half h).held
  let left := if was ∨ s.ctl.own.owned = false then s.ctl.left else s.ctl.own.deadline - s.now
  let s1 := (s.modHalf h fun k => { k with held := true }).modCtl fun k => { k with causes := k.causes ||| cause, left := left }
  let s2 := if was then s1 else s1.debugEnd 2
  if old || (s.half 0).inReset then s2
  else s2.post 0 0x01 0 .error 1 (leBytes 1 s2.ctl.causes.toNat ++ leBytes 4 s2.ctl.own.epoch.toNat)

/-- HELD ends on both halves (R369). -/
def State.leaveHeld (s : State) : State :=
  ((s.modHalf 0 fun k => { k with held := false }).modHalf 1 fun k => { k with held := false }).modCtl fun k =>
    { k with causes := 0, left := 0 }

/-! ## The owner record (R364 to R366) -/

/-- A lease in TIME cycles: LEASE_S, or OWN_LEASE where it is 0 (R366). -/
def State.leaseS (s : State) (n : Nat) : Nat := if n = 0 then field (s.raw 0x10008) 11 0 else n

def sec1 : Nat := 1000000000

/-- Whether the follower can acknowledge a mirror; in HELD the echoes must have returned as well (R364, R369). -/
def State.mirrorOk (s : State) : Bool :=
  s.bridge.sideUp && (s.half 1).up && !(s.half 1).inReset && (s.half 0).up && !(s.half 0).inReset
    && (!s.isHeld || (decide (s.boot.leadState = 0) && !(s.half 0).hbLost && !(s.half 1).hbLost))

/-! ## Executing commands (R360, R361) -/

/-- Whether a queued command is the one that a row names, by head and arguments. -/
def Cmd.is (c : Cmd) (hd : Head) (op : Nat) (p : List Byte → Bool) : Bool :=
  c.slot == hd.slot.val && c.reqId == hd.reqId && c.epoch == hd.epoch && c.op == op && p c.args

/-- Why a critical command is not executed, 0 for none (R360, R369). -/
def State.ownerCheck (s : State) (c : Cmd) : Nat :=
  if c.op = opClaim ∨ c.op = opRecover then 0
  else if s.isHeld then stHeld
  else if s.ctl.own.owned = false ∨ s.ctl.own.sess ≠ some c.slot ∨ s.ctl.own.sid ≠ c.sid ∨ (s.sess c.slot).id ≠ c.sid then stNotOwner
  else if s.ctl.own.epoch ≠ c.epoch then stStale
  else 0

/-- Count a critical command refused for its owner (R371). -/
def State.countRefused (s : State) : State := s.bump 0x10040

/-- Whether the lead management controller runs (R16). -/
def State.leadRuns (s : State) : Bool := s.boot.done && (s.half 0).up && !(s.half 0).inReset

/-- No critical command is being carried out; a RECOVER is executed beside a load (R361, R370). -/
def State.ctlFree (s : State) (op : Nat) : Bool :=
  s.ctl.pend.isNone && s.ctl.fwd.isNone && (s.ctl.load.isNone || op == opRecover)

/-- Execute the critical command at the head of the queue when it is the one named: one at a time, in order (R361). -/
def State.criticalIf (s : State) (hd : Head) (op : Nat) (p : List Byte → Bool) (f : Cmd → State → State) : State :=
  match s.ctl.cmdq with
  | [] => s
  | c :: r =>
    if s.leadRuns && s.ctlFree op && c.is hd op p then
      let s1 := s.modCtl fun k => { k with cmdq := r }
      let e := s1.ownerCheck c
      if e = 0 then f c s1 else s1.countRefused.respond c e
    else s

/-- The same for a command with all its arguments. -/
def State.critical (s : State) (hd : Head) (op : Nat) (args : List Byte) (f : Cmd → State → State) : State :=
  s.criticalIf hd op (fun l => l == args) f

/-- Execute a critical command whose response follows at once: the effect gives the state, status and data. -/
def State.simple (s : State) (hd : Head) (op : Nat) (args : List Byte) (f : State → State × Nat × List Byte) : State :=
  s.critical hd op args fun c s1 => let r := f s1; r.1.respond c r.2.1 r.2.2

/-- Whether reads are served: they wait while a part of a command is on its way to the follower, so that they see the
command before or after it (R361; log 32). -/
def State.readsRun (s : State) : Bool := s.leadRuns && s.ctl.fwd.isNone

/-- Serve a read, which waits beside the queue (R361). -/
def State.reading (s : State) (hd : Head) (op : Nat) (args : List Byte) (f : Cmd → State → State × Nat × List Byte) : State :=
  if s.readsRun then
    match takeFirst (fun c => c.is hd op fun l => l == args) s.ctl.readq with
    | none => s
    | some (c, r) =>
      let q := f c (s.modCtl fun k => { k with readq := r })
      q.1.respond c q.2.1 q.2.2
  else s

/-- The status of an access that the follower must make: 0 where it can (R24). -/
def State.farStatus (s : State) : Nat :=
  if s.bridge.dataUp = false then stBridge else if (s.half 1).inReset then stBusy else 0

/-- Give the follower its part of a command; the response follows when it is done (R16, R360). -/
def State.forward (s : State) (c : Cmd) (p : Fwd) : State := s.modCtl fun k => { k with fwd := some (c, p) }

end Sys2Proof.Machine
end

