-- ==== Sys2Proof/Machine/HostOps.lean ====
section
/-! DEFINITION. The host port below its protocols: frame size, priority, receive buffers and PFC in both directions (R342, R344,
R345). A frame acts as it arrives; its bytes leave the buffer as TIME passes, how fast is a free choice (log 60). -/

namespace Sys2Proof.Machine

def State.modHost (s : State) (f : HostSt → HostSt) : State := { s with host := f s.host }

/-- HST_RX_DROP. -/
def rxDrop : Nat := 0x70040

/-- The priority of a received frame: its tag, or DEF_PCP of HST_CFG. -/
def EthHead.prio (e : EthHead) (cfg : Word) : Nat := match e.pcp with | some p => p.toNat | none => field cfg 18 16

/-- BULK_PCP or MGMT_PCP. -/
def State.classPrio (s : State) (bulk : Bool) : Nat :=
  if bulk then field (s.raw 0x70004) 14 12 else field (s.raw 0x70004) 10 8

/-- The priority of a frame that leaves (R344). -/
def State.sendPrio (s : State) (m : OutMsg) : Nat := s.classPrio m.bulk

/-- The bytes of a class's receive buffer. -/
def bufSize (bulk : Bool) : Nat := if bulk then 2097152 else 262144

def HostSt.fill (h : HostSt) (bulk : Bool) : Nat := if bulk then h.fillBulk else h.fillMgmt

/-- Whether PFC is on for a priority; never for that of management. -/
def State.pfcOn (s : State) (p : Nat) : Bool := bit (s.raw 0x70004) (24 + p) && field (s.raw 0x70004) 10 8 != p

/-- A pause frame for the bulk priority leaves, and is counted. -/
def State.sendPause (s : State) (xoff : Bool) : State :=
  ((s.emit (.pause (s.classPrio true) xoff)).bump 0x70058).modHost fun h => { h with xoff := xoff }

/-- XOFF once the bulk buffer is above 75 %, XON once it is below 50 %. -/
def State.watchBuf (s : State) : State :=
  let f := s.host.fillBulk
  let on := s.pfcOn (s.classPrio true)
  if on && !s.host.xoff && decide (3 * bufSize true < 4 * f) then s.sendPause true
  else if s.host.xoff && decide (2 * f < bufSize true) then
    if on then s.sendPause false else s.modHost fun h => { h with xoff := false }
  else s

/-- A frame of a class is taken into its buffer; one that is too long, of another priority or without room is dropped and
counted (log 60). -/
def State.frameIn (s : State) (e : EthHead) (bulk : Bool) : State × Bool :=
  let n := e.len.toNat
  if 9216 < n ∨ e.prio (s.raw 0x70004) ≠ s.classPrio bulk ∨ bufSize bulk < s.host.fill bulk + n then (s.bump rxDrop, false)
  else
    let s1 := s.modHost fun h => if bulk then { h with fillBulk := h.fillBulk + n } else { h with fillMgmt := h.fillMgmt + n }
    (s1.watchBuf, true)

/-- The buffers empty as TIME passes. -/
def State.drainHost (s : State) : State :=
  let h := s.host
  if h.fillMgmt = 0 ∧ h.fillBulk = 0 then s
  else
    let w := (Config.freeWord s.freeCtr).toNat
    ((s.bumpFree 1).modHost fun x =>
      { x with fillMgmt := w % (h.fillMgmt + 1), fillBulk := w / 2 ^ 32 % (h.fillBulk + 1) }).watchBuf

/-- A received pause frame holds back the bulk class. -/
def State.bulkPaused (s : State) : Bool :=
  let p := s.classPrio true
  bit s.host.paused p && s.pfcOn p

/-- A bulk frame leaves, or waits for the end of the pause. -/
def State.emitBulk (s : State) (m : OutMsg) : State :=
  if s.bulkPaused then s.modHost fun h => { h with waiting := h.waiting ++ [m] } else s.emit m

/-- Bulk frames that waited leave once nothing pauses them. -/
def State.flushBulk (s : State) : State :=
  if s.bulkPaused then s
  else (s.host.waiting.foldl State.emit s).modHost fun h => { h with waiting := [] }

/-- A datagram to a port that nothing serves: dropped, counted, and answered with destination unreachable (R342; log 60). -/
def State.noPort (s : State) (a : AddrPair) : State := (s.bump rxDrop).emit (.unreachable a)

end Sys2Proof.Machine
end

