-- ==== Sys2Proof/Machine/Move.lean ====
section
/-! DEFINITION. The move engine (R116 to R125, R139) and the atomic operations and bucket counting it drives (R174 to
R180). -/

namespace Sys2Proof.Machine

/-- MOVE: the descriptor is copied and checked, then queued; a copy that meets an uncorrectable error completes at once
with an error status (R116 to R123, R136). -/
def execMove (c : CoreId) (t : ThreadId) (f : IFields) (s : State) : Host.Outcome State Fault Refusal :=
  s.decoded c t (3, 0x00) f <|
  s.issue c t [f.ra] (f.trackOk && f.rb == 0 && f.rc == 0 && f.rd == 0 && f.imm == 0) fun s1 x =>
    let tr := f.track t
    let va := x.sreg f.ra
    let a := va.toNat
    if 64 ≤ (s1.core c).mq.length || !(x.trackRoom tr) then .wait
    else
      match loadFault c a 64 64 with
      | some e => .raise e va
      | none =>
        let p := s1.read a 64 0 c
        if p.2.2 then
          let s2 := p.1.setThread c t (x.trackUp tr)
          .done (s2.moveEnd c tr true) x.next
        else
          let q := decodeMove p.2.1
          let d := q.1
          if !(q.2 && d.legal && d.dramDst) then .raise .illegal va
          else if !d.aligned then .raise .align (BitVec.ofNat 64 d.misaligned)
          else if !(s1.footOk d) then .raise .addr (BitVec.ofNat 64 ((s1.footBad d).getD 0))
          else if s1.footProg d then .raise .prot (BitVec.ofNat 64 ((s1.progBad d).getD 0))
          else
            let s2 := p.1.setThread c t (x.trackUp tr)
            .done (s2.modCore c fun k => { k with mq := k.mq ++ [⟨d, tr⟩] }) x.next

/-- Whether an answer to an earlier move in slot `i` may still come (R140, R291). -/
def CoreSt.owes (k : CoreSt) (i : Nat) : Bool := (k.gone ++ k.late).any fun p => p.1 / 4096 == i

/-- A free slot of the 16: the lowest that waits for no answer of an earlier move, else the lowest (R125; log 54). -/
def CoreSt.freeSlot (k : CoreSt) : Option Nat :=
  match (upto 16).find? fun i => (k.slot i).isNone && !k.owes i with
  | some i => some i
  | none => (upto 16).find? fun i => (k.slot i).isNone

/-- MOVE_START: the oldest queued move takes a free slot. A local COPY, FILL or TRANSPOSE is carried out; an atomic move, a
PUT and a GET go on by their own steps. A write into descriptors or with MX into scales that the commit engine holds waits
(R125, R195). -/
def execMoveStart (c : CoreId) (s : State) : Host.Outcome State Fault Refusal :=
  let k := s.core c
  match k.mq, k.freeSlot with
  | o :: r, some i =>
    let d := o.d
    if !(s.moveRuns c) || s.moveHeld d then .next s
    else
      let s1 := s.modCore c fun k => { k with mq := r }
      if d.atomic then .next (s1.setSlot c i (some { op := o }))
      else if d.put || d.get then
        let p := s1.copyScales c d
        .next (p.1.setSlot c i (some { op := o, err := p.2 }))
      else
        let p := s1.localMove c d
        .next (p.1.setSlot c i (some { op := o, err := p.2, done := true }))
  | _, _ => .next s

/-- MOVE_COMPLETE: a move whose work is done completes and frees its slot (R127). -/
def execMoveComplete (c : CoreId) (slot : SlotId) (s : State) : Host.Outcome State Fault Refusal :=
  match (s.core c).slot slot with
  | some m =>
    if m.done && decide (m.owed = []) && !m.stopped && s.moveRuns c then
      .next ((s.setSlot c slot none).moveEnd c m.op.tr m.err)
    else .next s
  | none => .next s

/-! ## Atomic operations (R174 to R176) -/

/-- The bucket whose contribution extent holds the `n` bytes from `a` wholly (R178). -/
def State.bucketOf (s : State) (a n : Nat) : Option Nat :=
  (s.buckets.find? fun p => inside a n p.2.base p.2.len).map (·.1)

/-- The home stack of a bucket (R177). -/
def State.homeKey (s : State) (b : Bucket) : Nat := (keyOf s.regions b.base).getD 0
def State.homeStack (s : State) (b : Bucket) : Nat := (stackOfKey (s.homeKey b)).getD 0

/-- Result of an atomic operation on one beat: new elements, whether it becomes spoiled. -/
structure BeatOut where
  data : List Byte
  spoil : Bool

/-- ADD on one element: the sum held to int32, and whether it saturated (R175). -/
def addElem (x y : Nat) : Nat × Bool :=
  let v := sgn 32 x + sgn 32 y
  let w := clampI (-2147483648) 2147483647 v
  (code 32 w, decide (v ≠ w))

/-- Whether an incoming element fails the guard check (R176). -/
def guardFails (g y : Nat) : Bool := decide (2 ^ (31 - g) ≤ (sgn 32 y).natAbs)

/-- One beat of ADD under a guard, none where no bucket is registered. -/
def beatAdd (old new : List Byte) (g : Option Nat) : BeatOut :=
  (upto (new.length / 4)).foldl
    (fun (o : BeatOut) i =>
      let y := leAt new (4 * i) 4
      let r := addElem (leAt old (4 * i) 4) y
      ⟨o.data ++ leBytes 4 r.1, o.spoil || r.2 || (match g with | none => false | some n => guardFails n y)⟩)
    ⟨[], false⟩

/-- Words of MAX and OR. -/
def wordsBy (f : Nat → Nat → Nat) (old new : List Byte) : List Byte :=
  (upto (new.length / 4)).flatMap fun i => leBytes 4 (f (leAt old (4 * i) 4) (leAt new (4 * i) 4))

/-- The larger of two signed words. -/
def maxWord (x y : Nat) : Nat := if sgn 32 x < sgn 32 y then y else x

/-- The logic die's work on the part of one beat from `a`: an uncorrectable error leaves the beat (R185); a region that
carries no metadata takes none (R173). The flag is an error status. -/
def State.dieBeat (s : State) (c kind a : Nat) (new : List Byte) : State × Bool :=
  let n := new.length
  let b0 := a / 256 * 256
  match regionAt s.regions a with
  | none => (s, true)
  | some r =>
    if !r.carrier then (s, true)
    else
      let p := s.scanUnits (s.unitsOf b0 256 ++ [unitKey (r.metaKey a)]) 2 c
      if p.2 then (p.1, true)
      else
        let s1 := p.1
        let old := s1.bytes a n
        let m := s1.beatMeta r a
        if kind = kAdd then
          let g := (s1.buckets.find? fun q => within a q.2.base q.2.len).map fun q => q.2.guard
          let o := beatAdd old new g
          let s2 := { s1 with mem := writeBytes s1.regions s1.mem a o.data }
          let s3 := s2.setMeta r a ((m.1 + tuneWord new) % 65521) (m.2 || o.spoil)
          (if o.spoil then s3.bump (aStk (r.place a).1 0x020) else s3, false)
        else
          let o := wordsBy (if kind = kMax then maxWord else fun x y => x ||| y) old new
          let s2 := { s1 with mem := writeBytes s1.regions s1.mem a o }
          (s2.setMeta r a (tuneWord (s2.bytes b0 256)) m.2, false)

/-- Lengths of the parts that boundaries of `g` bytes cut from `n` bytes at `a`. -/
def cuts (g a n : Nat) : List (Nat × Nat) :=
  ((seqFrom (a / g) ((a + n + g - 1) / g - a / g)).map fun i =>
    let lo := max a (i * g)
    (lo, min (a + n) ((i + 1) * g) - lo)).filter fun p => decide (0 < p.2)

/-- The next piece of an atomic move, at most 4 KiB, at the logic die that holds it (R174). One that would write a closed byte
writes nothing (R381, R489). -/
def State.atomicPiece (s : State) (c slot : Nat) (m : RunMove) : State :=
  let d := m.op.d
  let a := d.dstAt m.run + m.off
  let n := min (d.len0 - m.off) (4096 - a % 4096)
  let rd := s.moveRead c (d.srcAt m.run + m.off) n
  let p : State × Bool :=
    match rd.2.1 with
    | none => (rd.1, true)
    | some l =>
      if rd.1.closedReq a n || decide (rd.1.accRange (halfOf c) a n ≠ .ok) then (rd.1, true)
      else
        let h := halfOf c
        let q := (cuts 256 a n).foldl
          (fun (w : State × Bool) g => let r := w.1.dieBeat c d.kind g.1 (slice l (g.1 - a) g.2); (r.1, w.2 || r.2))
          (rd.1.cross h (1 - h) 2 (rd.1.farBytes h a n), rd.2.2)
        match (keyOf s.regions a).bind stackOfKey with
        | none => q
        | some j => (q.1.bump (aStk j 0x01C), q.2)
  let m1 := { m with off := m.off + n, err := m.err || p.2 }
  let m2 :=
    if m1.off < d.len0 then m1
    else
      let inB := (s.bucketOf (d.dstAt m.run) d.len0).isSome
      { m1 with
        run := m.run + 1
        off := 0
        owed := if d.contrib ∧ inB then m.owed ++ [m.run] else m.owed
        err := m1.err || (d.contrib && !inB)
        done := decide (m.run + 1 = d.cnt1 * d.cnt2) }
  p.1.setSlot c slot (some m2)

/-- The next piece of a running move of kind `kind`. -/
def State.atomicStep (s : State) (c slot kind : Nat) : State :=
  match (s.core c).slot slot with
  | some m => if m.op.d.kind = kind ∧ m.done = false ∧ s.moveRuns c then s.atomicPiece c slot m else s
  | none => s

/-- ATOMIC_ADD (R175, R176). -/
def execAtomicAdd (c : CoreId) (slot : SlotId) (s : State) : Host.Outcome State Fault Refusal :=
  .next (s.atomicStep c slot kAdd)

/-- ATOMIC_MAX (R175). -/
def execAtomicMax (c : CoreId) (slot : SlotId) (s : State) : Host.Outcome State Fault Refusal :=
  .next (s.atomicStep c slot kMax)

/-- ATOMIC_OR (R175). -/
def execAtomicOr (c : CoreId) (slot : SlotId) (s : State) : Host.Outcome State Fault Refusal :=
  .next (s.atomicStep c slot kOr)

/-! ## Contributions (R177 to R180) -/

/-- Count a contribution to bucket `b`; the flag is an error status (R178, R179). -/
def State.countContrib (s : State) (b : Nat) : State × Bool :=
  let k := mapGet {} s.bkt b
  let e := (mapGet {} s.buckets b).expected
  let k1 : BktCnt := { k with count := k.count + 1, full := k.full || decide (k.count + 1 = e), excess := k.excess || decide (e ≤ k.count) }
  ({ s with bkt := mapSet {} s.bkt b k1 }, decide (e ≤ k.count))

/-- CONTRIB_RX: the home die counts the contribution of the oldest run owed (R178). A home die that does not answer leaves
it uncounted with an error status (R172). -/
def execContribRx (c : CoreId) (slot : SlotId) (s : State) : Host.Outcome State Fault Refusal :=
  match (s.core c).slot slot with
  | some m =>
    match m.owed with
    | [] => .next s
    | k :: r =>
      let d := m.op.d
      let q : State × Bool :=
        match s.bucketOf (d.dstAt k) d.len0 with
        | none => (s, true)
        | some b =>
          if s.accKey (halfOf c) (s.homeKey (mapGet {} s.buckets b)) ≠ .ok then (s, true) else s.countContrib b
      let m1 := { m with owed := r, err := m.err || q.2 }
      .next (q.1.setSlot c slot (if m.stopped ∧ r = [] then none else some m1))
  | none => .next s

/-- BUCKET_FULL: the link sequencers receive the report and hold it (R178, R339). -/
def execBucketFull (b : Fin 4095) (s : State) : Host.Outcome State Fault Refusal :=
  if (mapGet {} s.bkt b).full then
    .next { s with col := { s.col with full := s.col.full ||| BitVec.ofNat 4096 (2 ^ b.val) } }
  else .next s

end Sys2Proof.Machine
end

