-- ==== Sys2Proof/Machine/RegRead.lean ====
section
/-! DEFINITION. What a register shows when it is read (R25, R26, R103, R141, R164, R187 to R189, R237, R280, R281, R317,
R340, R371, R372, R399, R416, R436, R452, R471, R472). A register that these functions do not compute shows its stored
value. -/

namespace Sys2Proof.Machine

/-- A word of fields: low bit and value of each. -/
def pk (l : List (Nat × Nat)) : Word := BitVec.ofNat 32 (l.foldl (fun w p => w + p.2 * 2 ^ p.1) 0)


/-- Word `n` of a byte string, byte 4n in [7:0]. -/
def leWord (l : List Byte) (n : Nat) : Word := w32 (leAt l (4 * n) 4)

/-- Word `n` of a byte string, byte 4n in [31:24]. -/
def beWord (l : List Byte) (n : Nat) : Word := w32 (beAt l (4 * n) 4)

/-! ## Blocks of the management side -/

def State.modReg (s : State) (o i : Nat) : Option Word :=
  if o = 0x8 then some (w32 s.fuse.serial.toNat)
  else if o = 0xC then some (w32 (s.fuse.serial.toNat / 2 ^ 32))
  else if o = 0x10 then some ((if s.sec.run = 0 then s.sec.slot0.ver else s.sec.slot1.ver).setWidth 32)
  else if o = 0x14 then
    some (pk [(4, b2n s.isHeld), (3, b2n ((s.half 0).hbLost || (s.half 1).hbLost)), (2, b2n s.bridge.dataUp), (0, s.boot.leadState)])
  else if o = 0x100 then some (w32 (nth (i % 48) s.fuse.sites i))
  else none

/-- Lease remaining in ms (R371). -/
def State.leaseLeft (s : State) : Nat :=
  if s.ctl.own.owned then (if s.isHeld then s.ctl.left else s.ctl.own.deadline - s.now) / 1000000 else 0

/-- STATE of OWN_STAT (R371). -/
def State.ownState (s : State) : Nat := if s.isHeld then 2 else b2n s.ctl.own.owned

def State.ownReg (s : State) (o i : Nat) : Option Word :=
  let k := s.ctl.own
  if o = 0x0 then some (pk [(8, b2n s.ctl.lapsed), (0, s.ownState)])
  else if o = 0x4 then some k.epoch
  else if o = 0xC then some (w32 s.leaseLeft)
  else if o = 0x10 then some (beWord (beBytes 16 (k.key.getD 0).toNat) i)
  else if o = 0x20 then some (w32 (k.sess.getD 0xFF))
  else if o = 0x24 then some (s.ctl.causes.setWidth 32)
  else none

def SecSt.slotOf (x : SecSt) (n : Nat) : SlotSt := if n = 0 then x.slot0 else x.slot1

/-- Version of a slot, 0 where it is invalid (R471). -/
def SecSt.slotVer (x : SecSt) (n : Nat) : Nat := if (x.slotOf n).valid then (x.slotOf n).ver.toNat else 0

def State.secReg (s : State) (o i : Nat) : Option Word :=
  let x := s.sec
  if o = 0x0 then
    some (pk [(5, b2n x.romOnly), (4, b2n (decide (64 < x.logCount))), (3, b2n x.coreFwBad), (2, b2n x.fallback), (1, x.next), (0, x.run)])
  else if o = 0x4 then some (pk [(24, x.fuseC), (16, x.fuseM), (8, (x.slotOf x.run).svnC), (0, (x.slotOf x.run).svnM)])
  else if o = 0x8 then some (pk [(16, x.slotVer 1), (0, x.slotVer 0)])
  else if o = 0xC then some (pk [(4, x.fwu.last), (2, x.fwu.kind), (0, x.fwu.st)])
  else if o = 0x10 then some (w32 x.fwu.data.length)
  else if o = 0x14 then some (w32 x.fwu.total)
  else if o = 0x18 then some (pk [(16, x.setVer), (4, x.recovery), (0, x.trust)])
  else if o = 0x20 then some (w32 x.logCount)
  else if o = 0x40 then some (leWord (nth [] x.log (field (s.raw 0x20024) 5 0)) i)
  else if o = 0x80 then some (w32 x.cert.length)
  else if o = 0x1000 then some (leWord x.cert i)
  else none

/-- The selection that CLK_SRC shows: one held for its link, or the one selected (R407). -/
def ClkSt.shown (k : ClkSt) : ClkSel := match k.held with | some x => x | none => k.sel

def State.clkReg (s : State) (o _i : Nat) : Option Word :=
  let k := s.clk
  let n := field (s.raw 0x30010) 8 0
  if o = 0x0 then
    some (pk [(8, k.mult), (4, k.input), (3, b2n k.slewing), (2, b2n k.xtalOk), (1, b2n k.refclkOk), (0, b2n k.locked)])
  else if o = 0x4 then
    let x := k.shown
    some (pk [(31, b2n (k.deferred.isSome || k.held.isSome)), (8, b2n k.sel.fallback), (4, x.link), (0, x.source)])
  else if o = 0x8 then some (pk [(2, b2n k.pllFault), (1, b2n k.fbAct), (0, b2n k.refLost)])
  else if o = 0x18 then
    some (if n < gateNodes then pk [(3, b2n (s.gate n).pend), (2, b2n (s.gateBusy n)), (0, (s.gate n).st.code)] else 0)
  else if o = 0x24 then some (pk [(31, b2n k.fmDone), (30, b2n k.fmErr), (0, k.fmCount % 2 ^ 30)])
  else if o = 0x30 then some (s.timeCount.setWidth 32)
  else if o = 0x34 then some k.timeHi
  else none

/-- A value that a sensor or a counter of the physical layer shows, which the manual does not give (log 4). -/
def State.sensed (s : State) (i : Nat) : Nat := (Config.freeWord (s.freeCtr + i)).toNat % 2 ^ 32

/-- A new millisecond brings new readings of the power sensors: free values, of which PEAK keeps the highest and the energy
only rises (R436; log 4). -/
def Meas.next (m : Meas) (now : Nat) (s : State) : Meas :=
  let avg := s.sensed 1 % 65536
  { input := w32 (s.sensed 0), avg := avg, peak := max m.peak (max avg (s.sensed 2 % 65536))
    energy := m.energy + BitVec.ofNat 64 (s.sensed 3), temps := BitVec.ofNat 24 (s.sensed 4), at_ := now / 1000000 }

/-- The readings are updated where a millisecond has begun since the last. -/
def State.measure (s : State) : State :=
  if s.pwr.meas.at_ < s.now / 1000000 then { s with pwr := { s.pwr with meas := s.pwr.meas.next s.now s } }.bumpFree 5 else s

/-- An FEC counter of a link that has trained rises by a free number of codewords (R280; log 4). -/
def State.fecCount (s : State) (l a : Nat) : State :=
  if (s.link l).lit then (s.bumpBy a 32 (s.sensed 0)).bumpFree 1 else s

def State.pwrReg (s : State) (o _i : Nat) : Option Word :=
  let k := s.pwr
  if o = 0x0 then some (pk [(11, b2n k.run.pend), (8, k.run.st.code), (4, k.target), (0, s.pstate.code % 3)])
  else if o = 0x4 then some (pk [(8, k.sensor), (0, k.trip.toNat)])
  else if o = 0x8 then some (w32 k.cause)
  else if o = 0x10 then some k.meas.input
  else if o = 0x14 then some (pk [(16, k.meas.peak), (0, k.meas.avg)])
  else if o = 0x18 then some (k.meas.energy.setWidth 32)
  else if o = 0x1C then some k.energyHi
  else if o = 0x20 then
    let hot := (upto 12).foldl (fun m j => max m (s.stack j).temp) 0
    some (pk [(24, hot % 256), (0, k.meas.temps.toNat)])
  else if o = 0x30 then
    some (pk [(16, (upto 12).foldl (fun m j => m + b2n (s.stack j).f.pend * 2 ^ j) 0), (0, k.stkEn.toNat)])
  else none

def State.evtReg (s : State) (o i : Nat) : Option Word :=
  let e := s.ev
  if o = 0x0 then some (pk [(2, b2n e.traceStopped), (1, b2n (decide (e.traceLen ≠ 0))), (0, b2n e.defaultRing)])
  else if o = 0x4 then some (pk [(27, e.ringLog2), (0, e.ringOff / 4096)])
  else if o = 0x8 then some (w32 e.wrMain)
  else if o = 0xC then some (w32 e.wrRsv)
  else if o = 0x10 then some (w32 e.traceIdx)
  else if o = 0x34 then some (pk [(1, b2n s.isHeld), (0, b2n e.fatal)])
  else if o = 0x80 then some (leWord e.lastFatal i)
  else none

def State.fimReg (s : State) (o i : Nat) : Option Word :=
  if o = 0x0 then some (pk [(16, s.img.ver), (4, field (s.raw 0x60000) 7 4), (1, b2n s.ctl.loading.isSome), (0, b2n s.img.loaded)])
  else if o = 0xC then some (w32 s.img.imgId.toNat)
  else if o = 0x10 then some (w32 (s.img.imgId.toNat / 2 ^ 32))
  else if o = 0x20 then some (beWord (digBytes s.img.hash) i)
  else none

/-- STATE of a session slot (R372). -/
def SessState.code : SessState → Nat
  | .free => 0
  | .setup => 1
  | .open_ => 2

def State.hstReg (s : State) (o _i : Nat) : Option Word :=
  let h := s.host
  let qps := (h.qps.filter fun p => p.2.exists_).length
  if o = 0x0 then
    let n := ((upto 16).filter fun i => decide ((s.sess i).st = .open_)).length
    some (pk [(16, min qps 255), (15, b2n (qps == 256)), (8, n), (1, b2n h.four), (0, b2n h.up)])
  else if o = 0x8 then some (w32 s.fuse.mac.toNat)
  else if o = 0xC then some (w32 (s.fuse.mac.toNat / 2 ^ 32))
  else if o = 0x10 then some (if bit (s.raw 0x70004) 1 then h.dhcp else s.raw 0x70010)
  else if o = 0x18 then some (w32 s.img.aukorPort)
  else if o = 0x24 then
    let i := field (s.raw 0x70020) 3 0
    let x := s.sess i
    some (pk [(16, x.key.toNat / 2 ^ 112), (8, x.ver.toNat), (2, b2n (s.ctl.own.sess == some i && x.id == s.ctl.own.sid)), (0, x.st.code)])
  else if o = 0x2C then
    let q := mapGet {} h.qps (field (s.raw 0x70028) 7 0)
    some (pk [(30, if q.exists_ then (if q.err then 2 else 1) else 0), (0, q.qpn % 2 ^ 24)])
  else none

/-! ## Fabric -/

/-- FSTATE of a link (R267). -/
def LState.fcode : LState → Nat
  | .off => 0
  | .parked => 0
  | .training => 1
  | .ident => 1
  | .peerParked => 1
  | .active => 2
  | .quarantine => 2
  | .shifting => 2
  | .down => 2
  | .parking => 3

def State.lnkReg (s : State) (l o : Nat) : Option Word :=
  let k := s.link l
  let id := k.peer.getD {}
  let seen := k.peer.isSome
  if o = 0x0 then
    some (pk [(28, k.st.code), (26, k.st.fcode), (25, b2n k.pend), (24, b2n k.skip), (20, k.qreason), (12, k.ver / 16), (8, k.ver % 16),
      (6, k.rate), (0, popcount 16 k.active.toNat)])
  else if o = 0x4 then some (pk [(16, k.failed.toNat), (0, k.active.toNat)])
  else if o = 0x8 then some (w32 id.serial.toNat)
  else if o = 0xC then some (w32 (id.serial.toNat / 2 ^ 32))
  else if o = 0x10 then
    some (if seen then pk [(24, id.port.toNat), (16, id.z.toNat), (8, id.y.toNat), (0, id.x.toNat)] else 0xFFFFFFFF)
  else if o = 0x14 then some (if seen then pk [(8, id.vmin.toNat), (0, id.vmax.toNat)] else 0)
  else if o = 0x18 then some id.jobTag
  else if o = 0x24 then some (pk [(16, k.attempts), (0, k.lastFail)])
  else none

def State.lnkjReg (s : State) (o : Nat) : Option Word :=
  let m := s.img
  if o = 0xF000 then some (pk [(24, m.shape.z), (16, m.shape.y), (8, m.shape.x), (0, m.wrap.toNat)])
  else if o = 0xF004 then some (if m.coordValid then pk [(31, 1), (16, m.coord.z), (8, m.coord.y), (0, m.coord.x)] else 0)
  else if o = 0xF008 then some (pk [(8, m.portUse), (0, m.kinds)])
  else if o = 0xF00C then some m.jobTag
  else if o = 0xF010 then some (pk [(16, m.linkMin), (8, 0x13), (0, 0x10)])
  else if o = 0xF014 then some (pk [(31, b2n s.boot.strapFault), (0, s.boot.strap.toNat)])
  else if o = 0xF018 then some (s.bypass.setWidth 32)
  else none

def State.rteReg (s : State) (o i : Nat) : Option Word :=
  let r := s.rt
  let sel := s.raw 0x90040
  if o = 0x0 then
    some (pk [(24, (upto 4).foldl (fun m v => m + b2n (s.vcBusy v) * 2 ^ v) 0), (12, min 4095 s.outstanding), (4, b2n r.resumeFail),
      (3, b2n r.staged), (2, b2n s.drained), (0, b2n r.quiesced)])
  else if o = 0x10 then some (w32 ((if r.quiesced then r.dlStaged else r.dl).get i))
  else if o = 0x24 then some ((mapGet 0xF (if r.quiesced then r.tblStaged else r.tbl) (field (s.raw 0x90020) 12 0)).setWidth 32)
  else if o = 0x44 then some (w32 (mapGet {} r.lim (limKey (b2n (bit sel 31)) (field sel 12 0))).rate)
  else if o = 0x80 then some (w32 (s.occWord i))
  else none

/-- The sequencer of register index `i`: links share that of their axis, 6 is the scalar sequencer (R322, R340). -/
def seqOf (i : Nat) : Nat := if i < 6 then i / 2 else 3

/-- COL_SEQ_STAT (R340): PASSING from a short run to the end of the action that the sequencer has passed on to (log 21). -/
def State.seqStat (s : State) (i : Nat) : Word :=
  let q := seqOf i
  let rs := s.runsOf q
  let passing := s.col.passing.getLsbD q
  if s.img.sched.isNone then 0
  else
    match rs with
    | r :: _ => pk [(29, if passing then 4 else 2), (17, rs.length), (12, r.tag), (0, r.entry)]
    | [] =>
      match s.stopAt q with
      | none => 0
      | some e => pk [(29, if passing then 4 else if s.isAct e then 3 else 1), (0, e)]

/-- COL_SEQ_RX and COL_SEQ_TX: the counts of the oldest run, by link (R335, R340). -/
def State.seqCnt (s : State) (i : Nat) (tx : Bool) : Word :=
  match s.runsOf (seqOf i) with
  | [] => 0
  | r :: _ =>
    let n := if tx then r.tx else r.rx
    let m := if tx then r.tx1 else r.rx1
    w32 (if i = 6 then n else if i % 2 = 1 then m else n - m)

def State.colReg (s : State) (o i : Nat) : Option Word :=
  let c := s.col
  if o = 0x0 then
    some (pk [(31, b2n c.short), (30, b2n c.residue), (16, c.firstShort), (12, c.why), (0, s.entries)])
  else if o = 0x40 then some (w32 c.lost)
  else if o = 0x44 then some (w32 c.failed)
  else if o = 0x48 then some (w32 c.stale)
  else if o = 0x4C then some (w32 c.residues)
  else if o = 0x50 then some (w32 c.spoiled)
  else if o = 0x54 then some (w32 c.csigXs)
  else if o = 0x58 then some (pk [(14, c.resBeat), (0, c.resBucket)])
  else if o = 0x60 then some (w32 c.lossSum)
  else if o = 0x100 then some (s.seqStat i)
  else if o = 0x104 then some (s.seqCnt i false)
  else if o = 0x108 then some (s.seqCnt i true)
  else none

def State.stepReg (s : State) (o : Nat) : Option Word :=
  let p := s.step
  if o = 0x0 then some (pk [(31, b2n p.torn), (0, p.phase.code)])
  else if o = 0x4 then
    some (pk [(8, b2n p.votedReady), (6, b2n p.strumTimeout), (5, b2n p.strumFailed), (4, b2n p.strumDone), (2, b2n p.muteTimeout),
      (1, b2n p.muted), (0, b2n p.muteDone)])
  else if o = 0x18 then some (p.committed.setWidth 32)
  else if o = 0x1C then some (w32 (p.committed.toNat / 2 ^ 32))
  else if o = 0x20 then some p.attempt
  else if o = 0x24 then some (w32 p.micro)
  else if o = 0x28 then some (pk [(16, s.bankDef), (0, p.bankSel.toNat &&& s.bankDef)])
  else if o = 0x30 then some (w32 (p.muteLocal.toNat % 512))
  else if o = 0x34 then some (w32 (p.muteJob.toNat % 512))
  else if o = 0x38 then some (w32 (p.strumLocal.toNat % 64))
  else if o = 0x3C then some (w32 (p.strumJob.toNat % 64))
  else if o = 0x40 then some (pk [(16, p.nfCores), (0, p.nfCore)])
  else if o = 0x44 then some (w32 p.nfBucket)
  else if o = 0x48 then some (w32 p.nfIndex)
  else if o = 0x50 then some (w32 p.muteTime)
  else if o = 0x54 then some (w32 p.strumTime)
  else if o = 0x78 then
    let g := field (s.raw 0xB0074) 9 0
    some (pk [(31, b2n (p.warned.getLsbD g)), (0, mapGet 0 p.silCnt g)])
  else none

/-! ## Memory, halves and cores -/

def State.stkReg (s : State) (j o : Nat) : Option Word :=
  let x := s.stack j
  let b := field (s.raw (aStk j 0x030)) 11 0
  let k : Bucket := mapGet {} s.buckets b
  let live := decide (k.len ≠ 0)
  let home := live && decide (s.homeStack k = j)
  let here := live && (match regionAt s.regions k.base with
    | none => false
    | some r => (seqFrom (k.base / 4096) ((k.base + k.len - 1) / 4096 + 1 - k.base / 4096)).any fun g => decide ((r.place (g * 4096)).1 = j))
  let c := mapGet {} s.bkt b
  if o = 0x0 then some (pk [(24, x.temp), (16, x.f.st.code), (8, b2n x.refresh2x), (0, b2n x.selfRefresh)])
  else if o = 0x34 then
    some (pk [(31, b2n (home && c.full)), (30, b2n (home && c.excess)), (29, b2n home), (28, b2n here), (0, if home then c.count % 2 ^ 24 else 0)])
  else if o = 0x38 then some (pk [(24, k.guard), (0, k.expected)])
  else none

def State.stkmReg (s : State) (o i : Nat) : Option Word :=
  match s.regions[i]? with
  | none => if 0xC100 ≤ o then some 0 else none
  | some r =>
    if o = 0xC100 then some (w32 r.base)
    else if o = 0xC104 then some (w32 r.size)
    else if o = 0xC108 then some (pk [(31, 1), (30, b2n r.carrier), (16, r.policy), (12, r.target), (0, r.offset)])
    else none

def State.brgReg (s : State) (o i : Nat) : Option Word :=
  let b := s.bridge
  if o = 0x0 then some (pk [(2, b2n b.sideUp), (1, b2n b.dataUp), (0, b2n b.training)])
  else if o = 0x8 then some (b.down.setWidth 32)
  else if o = 0x10 then some (w32 (nth 0 b.bytes i / 4096))
  else none

def State.dbgReg (s : State) (o i : Nat) : Option Word :=
  let x := s.sec
  if o = 0x0 then some (pk [(1, b2n x.dbgSince), (0, b2n s.debugOn)])
  else if o = 0x4 then some (if s.debugOn then w32 ((x.dbgUntil - s.now) / sec1) else 0)
  else if o = 0x10 then some (leWord (beBytes 16 x.chal.toNat) i)
  else if o = 0x20 then some (leWord (beBytes 16 x.dbgKey.toNat) i)
  else none

def State.hlfReg (s : State) (h o : Nat) : Option Word :=
  let k := s.half h
  if o = 0x0 then some (pk [(16, b2n k.held), (8, b2n k.hbLost), (0, b2n k.lead)])
  else if o = 0xC then some (if h = 0 then s.ctl.own.epoch else s.ctl.mirror.epoch)
  else none

def ThrState.code : ThrState → Nat
  | .idle => 0
  | .run => 1
  | .ending => 2
  | .stopped => 3
  | .faulted => 4

/-- STATE of CORE_STAT (R141). -/
def CoreSt.state (k : CoreSt) : Nat := if !k.ready then 0 else if k.faultState then 3 else if k.threadsBusy then 2 else 1

/-- A mask of the threads that satisfy `f`. -/
def CoreSt.thrMask (k : CoreSt) (f : ThreadSt → Bool) : Nat := k.thr.foldl (fun m p => if f p.2 then m + 2 ^ p.1 else m) 0

def State.coreReg (s : State) (c o i : Nat) : Option Word :=
  let k := s.core c
  let t := k.thread i
  if o = 0x0 then some (pk [(4, b2n k.stepFault), (0, k.state)])
  else if o = 0x4 then some (k.faultBits.setWidth 32)
  else if o = 0x8 then some (pk [(16, k.sfCode % 65536), (8, k.sfThread), (0, k.sfSource)])
  else if o = 0xC then some (pk [(16, k.progSize), (0, k.progBase)])
  else if o = 0x10 then some k.stop
  else if o = 0x14 then some (w32 (k.thrMask fun x => decide (x.st ≠ .idle)))
  else if o = 0x18 then some (w32 (k.thrMask fun x => decide (x.st = .faulted)))
  else if o = 0x20 then
    let n := (k.run.filter fun p => p.2.isSome).length
    some (pk [(16, k.outstanding), (7, n), (0, k.mq.length)])
  else if o = 0x100 then
    some (pk [(29, t.st.code), (28, b2n t.memErr), (24, match t.cause with | none => 0 | some e => e.code), (0, field t.pc 25 3)])
  else if o = 0x180 then some (t.excAddr.setWidth 32)
  else if o = 0x200 then some (w32 (mapGet 0 k.rc i))
  else none

/-- ARR_PBANK fields of a bank. -/
def claimWord (cl : Option Claim) : Nat :=
  match cl with
  | none => 0
  | some x => 2 ^ 15 + b2n x.wide * 2 ^ 14 + x.thr

/-- ARR_DBG_DATA0 to 3 of the sample taken last (R100, R101). -/
def DbgSample.word (x : DbgSample) (n : Nat) : Word :=
  if n = 0 then w32 x.e.v.toNat
  else if n = 1 then (if x.wide then 0 else w32 (x.e.v.toNat / 2 ^ 32))
  else if n = 2 then (if x.wide then 0 else w32 (x.e.v.toNat / 2 ^ 64))
  else pk [(31, b2n x.stale), (30, b2n x.e.tag), (29, b2n x.wide), (28, b2n x.e.written), (27, b2n x.ue)]

def State.arrReg (s : State) (c o i : Nat) : Option Word :=
  let k := (s.core c).arr
  let p := s.part c i
  let has := partHas k.mode i
  let n := fun (b : Nat) => (p.rows.filter fun r => r.bank == b).length
  if o = 0x0 then some (w32 k.mode)
  else if o = 0x4 then some (k.fault.setWidth 32)
  else if o = 0x10 then
    some (if has then pk [(22, n 1), (16, n 0), (8, p.queue.length), (2, b2n p.load.isSome), (1, b2n (!p.drains.isEmpty || !p.seeds.isEmpty)),
      (0, b2n (p.passes.any fun x => decide (x.issued < x.op.mcount)))] else 0)
  else if o = 0x14 then some (if has then w32 (claimWord p.claim0 + claimWord p.claim1 * 65536) else 0)
  else if o = 0x18 then some (if has then p.flags.setWidth 32 else 0)
  else if o = 0x1C ∧ has = false then some 0
  else if o = 0x54 then some (pk [(4, k.pwr.code), (0, k.level)])
  else if 0x84 ≤ o ∧ o ≤ 0x90 then some (if s.debugOn then k.dbg.word ((o - 0x84) / 4) else 0)
  else none

def State.vecReg (s : State) (c o : Nat) : Option Word :=
  let v := (s.core c).vec
  let src := fun (q : Option (Nat × Nat)) (bkt : Bool) =>
    match q with
    | none => if bkt then (0xFFF : Word) else 0xFFFFFFFF
    | some x => w32 (if bkt then x.1 else x.2)
  if o = 0x0 then some (pk [(16, b2n (c % 48 == 0)), (0, v.loads.foldl (fun m x => m ||| 2 ^ x.slot) 0)])
  else if o = 0x4 then some (v.valid.setWidth 32)
  else if o = 0x8 then some (w32 (v.cst.word.toNat % 16))
  else if o = 0xC then some (w32 v.cst.flush)
  else if o = 0x10 then some (src v.cst.cnfSrc true)
  else if o = 0x14 then some (src v.cst.cnfSrc false)
  else if o = 0x18 then some (src v.cst.spSrc true)
  else if o = 0x1C then some (src v.cst.spSrc false)
  else none

/-- What the register shows that a block computes. -/
def State.shown (s : State) (r : RegAddr) : Option Word :=
  let o := r.row.off
  match r.block with
  | .modB => s.modReg o r.idx
  | .own => s.ownReg o r.idx
  | .sec => s.secReg o r.idx
  | .clk => s.clkReg o r.idx
  | .pwr => s.pwrReg o r.idx
  | .evt => s.evtReg o r.idx
  | .fim => s.fimReg o r.idx
  | .hst => s.hstReg o r.idx
  | .lnk => s.lnkReg r.inst o
  | .rte => s.rteReg o r.idx
  | .col => s.colReg o r.idx
  | .stp => s.stepReg o
  | .stk => s.stkReg r.inst o
  | .brg => s.brgReg o r.idx
  | .dbg => s.dbgReg o r.idx
  | .hlf => s.hlfReg r.inst o
  | .core => s.coreReg r.inst o r.idx
  | .arr => s.arrReg r.inst o r.idx
  | .vec => s.vecReg r.inst o
  | .stkm => s.stkmReg o r.idx
  | .lnkj => s.lnkjReg o

/-- The value of a register: computed, or stored with its WO fields read as 0 (R5). -/
def State.regVal (s : State) (r : RegAddr) (a : Nat) : Word :=
  match s.shown r with
  | some v => v
  | none => s.raw a &&& (~~~ (w32 r.row.wo))

/-- A register that shows sensors or the physical layer is brought up to date before it is read (R280, R436). -/
def State.senseReg (s : State) (r : RegAddr) (a : Nat) : State :=
  if r.block = .pwr ∧ (r.row.off = 0x10 ∨ r.row.off = 0x14 ∨ r.row.off = 0x18 ∨ r.row.off = 0x20) then s.measure
  else if r.block = .lnk ∧ (r.row.off = 0x38 ∨ r.row.off = 0x3C) then s.fecCount r.inst a
  else s

/-! ## Accesses -/

/-- The half that a block belongs to; none for the module-wide blocks (R24). -/
def halfOfReg (r : RegAddr) : Option Nat :=
  match r.block with
  | .lnk => some (r.inst % 2)
  | .stk => some (r.inst / 6)
  | .hlf => some r.inst
  | .core => some (halfOf r.inst)
  | .arr => some (halfOf r.inst)
  | .vec => some (halfOf r.inst)
  | _ => none

/-- The half whose fields the router block shows through this register: the links and limiters of half 1 (R24, R317). -/
def State.rteHalf (s : State) (r : RegAddr) : Option Nat :=
  if r.block = .rte ∧ (r.row.off = 0x80 ∨ r.row.off = 0xA0) then some (r.idx % 2)
  else if r.block = .rte ∧ r.row.off = 0x44 then some (b2n (bit (s.raw 0x90040) 31))
  else halfOfReg r

/-- The status of an access to a block, 0 where it is reached (R24). -/
def State.regReach (s : State) (r : RegAddr) : Nat :=
  match s.rteHalf r with
  | none => 0
  | some h => if h = 1 ∧ s.bridge.dataUp = false then stBridge else if (s.half h).inReset then stBusy else 0

/-- Clear the RC fields of a register (R5, R9); a count kept beside the stored registers clears too, and a peak of a buffer
begins again from what the buffer holds (R317). -/
def State.clearRc (s : State) (r : RegAddr) (a : Nat) : State :=
  if r.row.rc = 0 then s
  else if r.block = .vec ∧ r.row.off = 0xC then s.modCst r.inst fun x => { x with flush := 0 }
  else if r.block = .rte ∧ r.row.off = 0xA0 then s.setRaw a (w32 (s.occWord r.idx))
  else if r.block = .pwr ∧ r.row.off = 0x14 then { s with pwr := { s.pwr with meas := { s.pwr.meas with peak := 0 } } }
  else s.setRaw a (s.raw a &&& (~~~ (w32 r.row.rc)))

/-- A register is read: RC fields clear where `clear`, a read of a LO half latches its HI half (R5, R9, R416, R436). -/
def State.regTake (s : State) (r : RegAddr) (a : Nat) (clear : Bool) : State × Word :=
  let s1 := s.senseReg r a
  let v := s1.regVal r a
  let s2 := if clear then s1.clearRc r a else s1
  let s3 :=
    if a = 0x30030 then s2.modClk fun k => { k with timeHi := w32 (s.timeCount.toNat / 2 ^ 32) }
    else if a = 0x40018 then { s2 with pwr := { s2.pwr with energyHi := w32 (s2.pwr.meas.energy.toNat / 2 ^ 32) } }
    else s2
  (s3, v)

/-! ## Accumulator samples (R100, R101) -/

/-- The partition of a logical column. -/
def partOfCol (mode n : Nat) : Nat := n / partW mode

/-- Sample the accumulator entry that ARR_DBG_SEL names; an error of the read is counted or reported (R92, R100, R101). -/
def State.sample (s : State) (c : Nat) (e : AccErr) : State :=
  let w := s.raw (aArr c 0x080)
  let bank := field w 16 16
  let m := field w 15 8
  let n := field w 4 0
  let k := (s.core c).arr
  let p := partOfCol k.mode n
  let x := s.part c p
  let ent : Entry := mapGet {} k.acc (Sys2Proof.Machine.accKey bank m n)
  let wide := match x.claim bank with | none => false | some cl => cl.wide
  let stale := x.rows.any fun r => r.bank == bank
  let s1 := match e with
    | .ok => s
    | .ce => s.bumpBy (aArr c (0x01C + 0x10 * p)) 16 1
    | .ue _ => (s.modPart c p fun y => y.raiseIf true fACC_UE).partFault c p bank m 1
  let v := match e with | .ue f => { ent with v := ent.v ^^^ f } | _ => ent
  s1.modArr c fun a => { a with dbg := { e := v, stale := stale, wide := wide, ue := match e with | .ue _ => true | _ => false } }

/-- Whether a register is one of the four of an accumulator sample. -/
def isDbgData (r : RegAddr) : Bool := r.block == .arr && decide (0x84 ≤ r.row.off) && decide (r.row.off ≤ 0x90)

/-- One register is read: `owner` says that the reader is the owner's session, `clear` that RC fields clear (R9, R10,
R24, R100). The answer is the status, 0 for none, and the value. -/
def State.readReg (s : State) (owner clear : Bool) (e : AccErr) (a : Nat) : State × Nat × Word :=
  match decodeReg a with
  | none => (s, stAddr, 0)
  | some r =>
    let st := s.regReach r
    if st ≠ 0 then (s, st, 0)
    else if isDbgData r && !(s.debugOn && owner) then (s, stDenied, 0)
    else
      let s1 := if r.block = .arr ∧ r.row.off = 0x84 then s.sample r.inst e else s
      let q := s1.regTake r a clear
      (q.1, 0, q.2)

end Sys2Proof.Machine
end

