-- ==== Sys2Proof/Machine/StepBlock.lean ====
section
/-! DEFINITION. The actions of the STEP block, both votes and the commit (R213 to R236). -/

namespace Sys2Proof.Machine

/-! ## Actions (R216, R217) -/

/-- Whether action `op` may be tried: its entry is released, the router runs, and, for all but OPEN, every earlier entry of
the attempt has ended (R216, R311, R323 to R325). A MICRO released at N - 1 is tried wherever the sequencers stand (R324). -/
def State.actReady (s : State) (op : Nat) : Option Nat :=
  match s.actEntry op with
  | none => none
  | some e =>
    let at_ := decide (s.col.runs = []) && (upto 4).all fun q => decide (s.stopAt q = some e)
    if s.boot.released ∧ s.rt.quiesced = false ∧ s.step.actEnd.isNone ∧ s.released e
      ∧ (op = 0 ∨ at_ ∨ (op = 1 ∧ s.step.micro = s.nm1)) then some e
    else none

/-- What a refused action does: STATUS 1, rc[STEP_RC], an ERROR event (R217). -/
def State.refused (s : State) (op : Nat) : State :=
  ((s.recPut 0x0E [1]).raiseStep).post 0 0x0B 0 .error 1 (leBytes 1 op ++ leBytes 1 s.step.phase.code)

/-- An action of entry `e` is refused; the releases are taken (R217). -/
def State.refuse (s : State) (e op : Nat) : State := (s.consume e).refused op

/-- Run an action: refused where its phase does not allow it, and always without a schedule (R217, R233, R396). Its drain
timer ends; an OPEN ends them all (R325, R336). -/
def State.act (s : State) (op : Nat) (ok : Bool) (f : State → State) : State :=
  match s.actReady op with
  | none => if s.img.sched.isNone && s.boot.released then s.refused op else s
  | some e =>
    if ok then
      let s1 := (s.readEnt e).consume e
      f { s1 with col := { s1.col with drains := s1.col.drains.filter fun d => op ≠ 0 ∧ d.1 ≠ e } }
    else s.refuse e op

/-- OPEN starts a window (mode 0) or a reduction re-tune (mode 1) (R219, R325). -/
def State.openNow (s : State) (mode : Nat) : State :=
  let s0 := match s.img.sched with
    | some (_, c, _) => if mode = 1 then s.noteRead (commonsBase + c) 512 else s
    | none => s
  let s1 := { s0 with col := { s0.col with
      runs := []
      rel := []
      retune := mode == 1
      sel := if mode = 1 then
          (match s.img.sched with
           | none => 0
           | some (_, c, _) => BitVec.ofNat 4096 (leNat (s.bytes (commonsBase + c) 512)))
        else 0 } }
  let s2 := s1.clearSources
  let t := s2.step
  let s3 := { s2 with step := { t with
      attempt := BitVec.ofNat 32 (satAdd 32 t.attempt.toNat 1)
      micro := if mode = 0 then 0 else t.micro
      votedReady := false, muteDone := false, muted := false, muteTimeout := false
      strumDone := false, strumFailed := false, strumTimeout := false
      actEnd := some (0, 0) } }
  let s4 :=
    if mode = 0 then
      (({ s3 with bkt := [], col := { s3.col with full := 0 } }.recPut 0x18 (List.replicate 4 0)).recPut 0x100
        (List.replicate 256 0)).clearPstat
    else s3
  s4.setPhase .window

/-- OPEN (R217, R219, R233). -/
def execOpenStep (s : State) : Host.Outcome State Fault Refusal :=
  let p := s.recGet 0x1C 1
  let mode := leAt p.2 0 1
  let ph := s.step.phase
  let ok := (ph == .idle || ph == .muted || ph == .failed) && !s.step.torn && decide (mode < 2)
  let t := if (s.actReady 0).isSome then p.1 else s
  .next (t.act 0 ok fun q =>
    let own := (q.actEntry 0).getD 0
    let rel := q.col.rel.filter fun x => x.1 % 4096 == own
    let q1 := q.openNow mode
    { q1 with col := { q1.col with rel := rel } })

/-- MICRO (R220, R324). -/
def execMicro (s : State) : Host.Outcome State Fault Refusal :=
  .next (s.act 1 (s.step.phase == .window && decide (s.step.micro < s.nm1)) fun q =>
    { q with step := { q.step with micro := q.step.micro + 1, actEnd := some (1, 0) } })

/-- Start a vote: the vector goes into the vote buffer and the OR runs over X, Y and Z (R334). -/
def State.startVote (s : State) (op : Nat) (v : List Byte) : State :=
  match s.img.sched with
  | none => s
  | some (_, c, _) =>
    let a := commonsBase + c + 0x800
    let r : ColRun :=
      { seq := 3, entry := (s.actEntry op).getD 0, kind := 4, tag := s.tagNow, startedAt := s.now, base := a, len := v.length
        op := 2, axes := 7 }
    let s1 := s.put a v
    let tag := BitVec.ofNat 16 (r.entry + 4096 * r.tag)
    { s1 with
      step := { s1.step with
        voteAt := s1.now, voteCount := s1.timeCount, voteLimit := 1000000 * field (s.raw 0xB0010) 15 0
        lateVotes := s1.step.lateVotes.filter (· ≠ tag) }
      col := { s1.col with runs := s1.col.runs ++ [r] } }

/-- The run of a vote begins its first axis (R332). -/
def State.voteAxis (s : State) : State :=
  match s.col.runs.find? fun (r : ColRun) => r.kind == 4 with
  | some r => s.startAxis r
  | none => s

/-- The lowest core whose carrier status holds CNF, and how many do (R226). -/
def State.nfCores (s : State) : List (Nat × CStat) :=
  s.cores.filterMap fun p => if p.2.vec.cst.cnf then some (p.1, p.2.vec.cst) else none

/-- MUTE: the causes are sampled, reported and cleared, and the vote starts (R221 to R226). -/
def execMute (s : State) : Host.Outcome State Fault Refusal :=
  .next (s.act 2 (s.step.phase == .window) fun q =>
    let p := q.recGet 0x18 4
    let loss := leAt p.2 0 4
    let q0 := p.1
    let w := q0.muteWord loss
    let nf := q0.nfCores
    let first := nf.head?.getD (0x7F, {})
    let src := first.2.cnfSrc.getD (0xFFF, 0xFFFFFFFF)
    let q1 := { q0 with step := { q0.step with
        muteLocal := BitVec.ofNat 64 w, nfCore := first.1, nfCores := nf.length, nfBucket := src.1, nfIndex := src.2 } }
    let q2 := if nonfin32 loss then q1.post 0 0x0B 0 .error 5 (leBytes 4 loss) else q1
    let q3 :=
      if nf = [] then q2
      else q2.post 0 0x0B 0 .error 4 (leBytes 1 first.1 ++ leBytes 2 src.1 ++ leBytes 4 src.2 ++ leBytes 1 nf.length)
    let v := leBytes 8 w ++ List.replicate 248 0 ++ leBytes 512 q3.step.spoilAny.toNat ++ leBytes 512 q3.step.spoilSrc.toNat
    ((((q3.clearSources).recPut 0x30 (leBytes 8 w)).setPhase .muteVote).startVote 2 v).voteAxis)

/-- The module's strum cause word is kept (R228, R237). -/
def State.noteStrum (s : State) (w : Nat) : State :=
  { s with step := { s.step with strumLocal := BitVec.ofNat 64 w, votedReady := decide (w = 0) } }

/-- STRUM: the causes are sampled and cleared, and the vote starts; from MUTED the module votes NOT_UPDATED (R228, R233). -/
def execStrum (s : State) : Host.Outcome State Fault Refusal :=
  let ph := s.step.phase
  .next (s.act 3 (ph == .update || ph == .muted) fun q =>
    let p := q.recGet 0x100 256
    let q0 := p.1
    let w := q0.strumWord
    let v := leBytes 8 w ++ List.replicate 248 0 ++ p.2
    ((((q0.clearSources.noteStrum w).recPut 0x38 (leBytes 8 w)).setPhase .strumVote).startVote 3 v).voteAxis)

/-- STEP_ACTION_END: STATUS and the counters go into the record, rc[STEP_RC] rises, and the sequencers go on: after OPEN at
entry 1, after MICRO at LOOP, else at the next entry; after a muted vote the entries up to STRUM pass (R216, R324 to R326). -/
def execStepActionEnd (s : State) : Host.Outcome State Fault Refusal :=
  match s.step.actEnd with
  | none => .next s
  | some (op, status) =>
    let s1 := { s with step := { s.step with actEnd := none } }
    let s2 := (s1.writeRec status).raiseStep
    let e := (s2.actEntry op).getD 0
    let s3 :=
      if op = 0 then s2.goAll 1
      else if op = 1 then s2.goAll (s2.ent e).bucket
      else if op == 2 && s.step.muted then (s2.passAll (e + 1) schedMax).goAll ((s2.actFrom (e + 1) schedMax).getD (e + 1))
      else s2.goAll (e + 1)
    .next s3.runDeferred

/-! ## Vote timers (R224, R231) -/

/-- MUTE_VOTE_TIMEOUT: the attempt counts as muted (R224, R225). -/
def execMuteVoteTimeout (s : State) : Host.Outcome State Fault Refusal :=
  if s.step.phase = .muteVote ∧ s.voteDue then .next s.muteExpire else .next s

/-- STRUM_VOTE_TIMEOUT: FAILED, or UNCERTAIN where the module voted ready (R224, R231). -/
def execStrumVoteTimeout (s : State) : Host.Outcome State Fault Refusal :=
  if s.step.phase = .strumVote ∧ s.voteDue then .next s.strumExpire else .next s

/-! ## Commit (R229, R236) -/

/-- The groups the UPDATE section defines: bit 7 of RULE in the coefficient entry (R239, R240). -/
def State.definedGroups (s : State) : List Nat :=
  match s.img.updPlace with
  | none => []
  | some (c, _, _) => (upto s.img.groupCount).filter fun g => (s.byte (commonsBase + c + 64 * g)).getLsbD 7

/-- The silence monitor on one group (R236). -/
def State.silence (s : State) (g : Nat) : State :=
  let lim := field (s.raw 0xB0070) 15 0
  let silent := !(s.step.silNz.getLsbD g) || s.step.silFs.getLsbD g
  let m := BitVec.ofNat 1024 (2 ^ g)
  if lim = 0 ∨ silent = false then
    { s with step := { s.step with silCnt := mapSet 0 s.step.silCnt g 0, warned := s.step.warned &&& ~~~ m } }
  else
    let v := mapGet 0 s.step.silCnt g
    let n := satAdd 16 v 1
    let s1 := { s with step := { s.step with silCnt := mapSet 0 s.step.silCnt g n } }
    if n = lim ∧ v ≠ lim then
      { s1 with step := { s1.step with warned := s1.step.warned ||| m } }.post 0 0x0B 0 .warning 0x0A (leBytes 2 g ++ leBytes 2 n)
    else s1

/-- COMMIT_ACTION_END: descriptors, silence counters, counters, record, IDLE, rc[STEP_RC], a TRACE event (R229 steps 3 to
6); the sequencers pass STRUM, and commands held back are carried out (R235). -/
def execCommitActionEnd (s : State) : Host.Outcome State Fault Refusal :=
  if s.step.phase = .committing then
    let s1 := s.definedGroups.foldl State.silence s.commitDescs
    let t := s.step.committed + 1
    let s2 := { s1 with step := { s1.step with committed := t, attempt := 0, micro := 0, phase := .idle } }
    let s3 := ((s2.writeRec 0).raiseStep).post 0 0x0B 0 .trace 8 (leBytes 8 t.toNat)
    let e := (s3.actEntry 3).getD 0
    .next (s3.goAll (e + 1)).runDeferred
  else .next s

end Sys2Proof.Machine
end

