-- ==== Sys2Proof/Machine/RegWrite.lean ====
section
/-! DEFINITION. What a write of a register does (R5 to R10, R24, R103, R108, R141, R164, R187, R188, R232, R237, R280, R313,
R317, R340, R343, R371, R372, R409, R411, R414, R416, R424, R436, R447, R452). A register that these functions do not name
takes the written bits of its table. -/

namespace Sys2Proof.Machine

/-- A change of state beside a status (R358). -/
abbrev Effect := State × Nat

def State.accept (s : State) : Effect := (s, stAccepted)
def State.reject (s : State) : Effect := (s, stRefused)

/-- The stored bits of a register after a plain write. -/
def State.plainWrite (s : State) (r : RegAddr) (a : Nat) (v : Word) : State := s.setRaw a (r.row.written (s.raw a) v)

/-! ## Host addresses (R343) -/

/-- An IPv4 address as an IPv4-mapped one. -/
def mapped (ip : BitVec 32) : IpAddr := BitVec.ofNat 128 (0xFFFF * 2 ^ 32 + ip.toNat)

/-- The IPv4 address in use. -/
def State.ip4 (s : State) : BitVec 32 := if bit (s.raw 0x70004) 1 then s.host.dhcp else s.raw 0x70010

/-- Close every session bound to a module address that has gone, with reason ADDRESS. -/
def State.closeBound (s : State) (a : IpAddr) : State :=
  (upto 16).foldl
    (fun q i => if decide ((q.sess i).st ≠ .free) && decide ((q.sess i).addr.module = a) then q.closeSess i 2 else q)
    s

/-- What follows a change of the IPv4 address from `old`. -/
def State.ip4Changed (s : State) (old : BitVec 32) : State := if s.ip4 = old then s else s.closeBound (mapped old)

/-! ## Threads (R108) -/

/-- CORE_THR_CTL takes a value: a set bit stops a thread in RUN, a clear bit lets a stopped one resume. A core in its fault
state is frozen (R108). A thread that START or TSTART puts into RUN while its bit is set runs: only the write stops a
thread (DEDUCED, log 50). -/
def CoreSt.setStop (k : CoreSt) (v : Word) : CoreSt :=
  { k with
    stop := v
    thr := k.thr.map fun p =>
      let x := p.2
      (p.1, if k.faultState then x else if x.st = .run ∧ v.getLsbD p.1 then { x with st := .stopped }
        else if x.st = .stopped ∧ v.getLsbD p.1 = false then { x with st := .run } else x) }

/-! ## Gates, meter and stacks (R411, R414, R424) -/

/-- CLK_GATE_CTL takes a value for the selected node; `work` says that new work comes for it in the same cycle (R411,
R415). A number above the last node names no function. -/
def State.writeGate (s : State) (v : Word) (work : Bool) : Effect :=
  let n := field (s.raw 0x30010) 8 0
  let keep := s.setRaw 0x30014 (BitVec.ofNat 32 (field v 0 0))
  if gateNodes ≤ n then s.reject
  else if bit v 0 then
    let up : Bool := match gateParent n with | none => true | some p => decide ((s.gate p).st = .on)
    if up then let r := (s.gate n).enable; (keep.setGate n r.1, r.2) else s.reject
  else
    let r := (s.gate n).disable (!(s.gateKids n) && !(s.gateBusy n) && !work) true
    if r.2 = stRefused then s.reject else (keep.setGate n r.1, r.2)

/-- Order of severity of the statuses of R424. -/
def worse (a b : Nat) : Nat := if a = stRefused ∨ b = stRefused then stRefused else max a b

/-- One changed bit of PWR_STK_CTL is a command to its stack (R423, R424). -/
def State.stackCmd (s : State) (j : Nat) (on : Bool) : Effect :=
  let r := if on then (s.stack j).f.enable else (s.stack j).f.disable true true
  ({ s.modStack j (fun x => { x with f := r.1 }) with
      pwr := { s.pwr with stkEn := BitVec.ofNat 12 (setField s.pwr.stkEn j j (b2n on)).toNat } }, r.2)

/-- PWR_STK_CTL takes a value: the most severe status of its commands. -/
def State.writeStacks (s : State) (v : Word) : Effect :=
  (upto 12).foldl
    (fun (q : Effect) j =>
      if v.getLsbD j = q.1.pwr.stkEn.getLsbD j then q
      else let r := q.1.stackCmd j (v.getLsbD j); (r.1, worse q.2 r.2))
    (s, stAccepted)

/-- CLK_FM_CFG takes a value; START begins a measurement, or begins it again (R414). -/
def State.writeMeter (s : State) (r : RegAddr) (v : Word) : State :=
  let s1 := s.plainWrite r 0x30020 v
  if bit v 31 then s1.modClk fun k => { k with fm := true, fmAt := s.now, fmSteady := !k.slewing, fmDone := false, fmErr := false, fmCount := 0 } else s1

/-! ## Steps (R232, R237) -/

/-- A strum bitmap that the module never received, so a free value (log 4). -/
def State.freeBitmaps (s : State) : List Byte := (upto 256).map fun i => Config.freeByte (s.freeCtr + i)

/-- RESOLVE of STEP_CTL: 1 COMMIT, 2 ABORT, others ignored (R232). -/
def State.resolve (s : State) (v : Nat) : Effect :=
  if v = 0 ∨ v = 3 then s.accept
  else if s.step.phase ≠ .uncertain ∨ s.isHeld = true then s.reject
  else if v = 1 then ((s.startCommit s.freeBitmaps).bumpFree 256).accept
  else ((s.setPhase .failed).post 0 0x0B 0 .error 0x0C (leBytes 8 s.step.committed.toNat)).accept

/-- The copies of COMMITTED_STEP and BANK_SEL in the step record follow an owner write (R214; log 42). -/
def State.copyStep (s : State) : State :=
  (s.recPut 0 (leBytes 8 s.step.committed.toNat)).recPut 0x10 (leBytes 2 s.step.bankSel.toNat)

/-- COMMITTED_STEP takes HI and the pending LO (R237). -/
def State.writeCommitted (s : State) (v : Word) : Effect :=
  if s.step.phase ≠ .idle then s.reject
  else
    let lo := s.step.loPending.getD (s.step.committed.setWidth 32)
    { s with step := { s.step with committed := BitVec.ofNat 64 (v.toNat * 2 ^ 32 + lo.toNat), loPending := none } }.copyStep.accept

def State.writeStep (s : State) (r : RegAddr) (a : Nat) (v : Word) : Effect :=
  let o := r.row.off
  if o = 0x00 then { s with step := { s.step with torn := s.step.torn && !(bit v 31) } }.accept
  else if o = 0x08 then s.resolve (field v 1 0)
  else if o = 0x18 then
    if s.step.phase ≠ .idle then s.reject else { s with step := { s.step with loPending := some v } }.accept
  else if o = 0x1C then s.writeCommitted v
  else if o = 0x28 then
    if s.step.phase ≠ .idle then s.reject
    else { s with step := { s.step with bankSel := BitVec.ofNat 16 (v.toNat % 65536 &&& s.bankDef) } }.copyStep.accept
  else (s.plainWrite r a v).accept

/-! ## Router (R313, R317) -/

/-- A staged entry, and INDEX moves on. -/
def State.writeTable (s : State) (v : Word) : Effect :=
  if !(s.rt.quiesced && s.drained) then s.reject
  else
    let sel := s.raw 0x90020
    let n := field sel 12 0
    let s1 := { s with rt := { s.rt with tblStaged := mapSet 0xF s.rt.tblStaged n (BitVec.ofNat 16 (v.toNat % 16)), staged := true } }
    (s1.setRaw 0x90020 (setField sel 12 0 (if n = 6143 then 0 else n + 1))).accept

/-- A staged dateline. -/
def State.writeAxis (s : State) (a : Nat) (v : Word) : Effect :=
  if !(s.rt.quiesced && s.drained) then s.reject
  else { s with rt := { s.rt with dlStaged := s.rt.dlStaged.set a (field v 5 0), staged := true } }.accept

/-! ## Events and power -/

/-- EVT_TRACE_IDX: 0 restarts the trace buffer, any other value is ignored (R447, R452). -/
def State.writeTrace (s : State) (v : Word) : State :=
  if v = 0 then { s with ev := { s.ev with traceIdx := 0, traceStopped := false } } else s

/-- A value with field [hi:lo] kept from the old one unless it lies within its range. -/
def fieldIn (old v : Word) (hi lo a b : Nat) : Word :=
  let x := field v hi lo
  if a ≤ x ∧ x ≤ b then v else setField v hi lo (field old hi lo)

/-- TIME steps by the signed amount of HI and LO (R409). -/
def State.adjust (s : State) (hi : Word) : State :=
  { s with timeCount := s.timeCount + BitVec.ofNat 64 (hi.toNat * 2 ^ 32 + (s.raw 0x30038).toNat) }

/-! ## Every register -/

/-- A write of `v` to a register that the requester may write: blocks of the management side. -/
def State.writeMgmt (s : State) (r : RegAddr) (a : Nat) (v : Word) : Effect :=
  if a = 0x10000 then (s.modCtl fun k => { k with lapsed := k.lapsed && !(bit v 8) }).accept
  else if a = 0x30014 then s.writeGate v false
  else if a = 0x30020 then (s.writeMeter r v).accept
  else if a = 0x30038 then (s.setRaw a v).accept
  else if a = 0x3003C then (s.adjust v).accept
  else if a = 0x40004 then { s with pwr := { s.pwr with trip := s.pwr.trip &&& ~~~(BitVec.ofNat 4 v.toNat) } }.accept
  else if a = 0x40024 then (s.plainWrite r a (fieldIn (s.raw a) v 15 8 60 114)).accept
  else if a = 0x40030 then s.writeStacks v
  else if a = 0x50010 then (s.writeTrace v).accept
  else if a = 0x50014 then (s.plainWrite r a (fieldIn (s.raw a) v 25 16 10 1000)).accept
  else if a = 0x50034 then { s with ev := { s.ev with fatal := s.ev.fatal && !(bit v 0) } }.accept
  else if a = 0x70004 then
    let s1 := s.plainWrite r a v
    let s2 := if bit v 1 then s1 else { s1 with host := { s1.host with dhcp := 0 } }
    ((s2.ip4Changed s.ip4).flushBulk).accept
  else if a = 0x70010 then
    if bit (s.raw 0x70004) 1 then s.reject else ((s.setRaw a v).ip4Changed s.ip4).accept
  else (s.plainWrite r a v).accept

/-- A write of `v` to a register of a core (R103, R108, R141, R164). -/
def State.writeCore (s : State) (r : RegAddr) (a : Nat) (v : Word) : Effect :=
  let o := r.row.off
  let c := r.inst
  if r.block = .core ∧ o = 0x10 then
    if s.debugOn then (s.modCore c fun k => k.setStop v).accept else (s, stDenied)
  else if r.block = .arr ∧ o = 0x18 then
    (if partHas (s.core c).arr.mode r.idx then s.modPart c r.idx fun p => { p with flags := p.flags &&& ~~~(BitVec.ofNat 7 v.toNat) }
     else s).accept
  else if r.block = .vec ∧ o = 0x08 then
    (s.modCst c fun x =>
      { x with
        nf := x.nf && !(bit v 0), cnf := x.cnf && !(bit v 1)
        spoiled := x.spoiled && !(bit v 2), updNf := x.updNf && !(bit v 3) }).accept
  else (s.plainWrite r a v).accept

/-- One register is written: its status and what it does (R5 to R10, R24). -/
def State.writeReg (s : State) (a : Nat) (v : Word) : Effect :=
  match decodeReg a with
  | none => (s, stAddr)
  | some r =>
    let st := s.regReach r
    if st ≠ 0 then (s, st)
    else
      match r.block with
      | .stp => s.writeStep r a v
      | .rte =>
        if r.row.off = 0x24 then s.writeTable v
        else if r.row.off = 0x10 then s.writeAxis r.idx v
        else (s.plainWrite r a v).accept
      | .core => s.writeCore r a v
      | .arr => s.writeCore r a v
      | .vec => s.writeCore r a v
      | _ => s.writeMgmt r a v

/-! ## Accesses by a requester (R9, R10, R369) -/

/-- Whether a session is the owner's. -/
def State.isOwner (s : State) (slot : Nat) : Bool :=
  s.ctl.own.owned && decide (s.ctl.own.sess = some slot) && decide ((s.sess slot).id = s.ctl.own.sid)

/-- A write by a requester: only the owner writes, and not in HELD (R10, R371, R451). -/
def State.writeAs (s : State) (q : Requester) (a : Nat) (f : State → Effect) : State :=
  match q with
  | .i3c => s
  | .sess i =>
    if s.leadRuns && decide ((s.sess i).st = .open_) then
      let r := if s.isHeld then (s, stHeld) else if s.isOwner i then f s else (s, stNotOwner)
      r.1.emit (.regStatus (w32 a) r.2)
    else s

/-- Registers that I3C serves (R451). -/
def i3cServes (a : Nat) : Bool :=
  decide (a < 0x10004) || a == 0x30000 || a == 0x30008 || (decide (0x40000 ≤ a) && decide (a < 0x60000)) || a == 0x8F018
    || (decide (0x10000000 ≤ a) && decide (a < 0x20000000))

/-- Registers that I3C serves now: while Off the PWR block, in the boot ROM three registers (R451, R456). -/
def State.i3cServed (s : State) (a : Nat) : Bool :=
  if s.pstate = .off then decide (0x40000 ≤ a) && decide (a < 0x50000)
  else if s.sec.romOnly then a == 0 || a == 0x14 || a == 0x20000
  else i3cServes a

/-- The answer to a read leaves the module. -/
def State.answerRead (s : State) (a : Nat) (r : State × Nat × Word) : State :=
  if r.2.1 = 0 then r.1.emit (.regValue (w32 a) r.2.2) else s.emit (.regStatus (w32 a) r.2.1)

/-- A read by a requester; only the owner and I3C clear RC fields (R9, R451). -/
def State.readAs (s : State) (q : Requester) (a : Nat) (e : AccErr) : State :=
  match q with
  | .i3c => if s.i3cServed a then s.answerRead a (s.readReg false true e a) else s
  | .sess i =>
    if s.readsRun && decide ((s.sess i).st = .open_) then s.answerRead a (s.readReg (s.isOwner i) (s.isOwner i) e a) else s

end Sys2Proof.Machine
end

