-- ==== Sys2Proof/Machine/ResetOps.lean ====
section
/-! DEFINITION. The resets and what they keep (R140, R102, R163, R276, R425 to R429), the Run function and what leaving Rest
does (R419 to R424), Off (R422, R434). -/

namespace Sys2Proof.Machine

/-! ## Registers of a block -/

/-- Registers from `a` to `a + n` take their reset value, but for those that `keep` names (R427). -/
def State.resetRegs (s : State) (a n : Nat) (keep : Nat → Bool) : State :=
  { s with regs := s.regs.filter fun p => decide (p.1 < a) || decide (a + n ≤ p.1) || keep p.1 }

/-! ## Core reset (R102, R140, R163, R221, R235) -/

/-- A core as its reset leaves it: program place, partition mode, receive counters and what it still owes are kept. -/
def CoreSt.afterReset (k : CoreSt) : CoreSt :=
  let k1 := k.stopMoves
  { ({} : CoreSt) with
    progBase := k.progBase, progSize := k.progSize, rc := k.rc, run := k1.run, gone := k1.gone, late := k1.late, arr := { mode := k.arr.mode } }

/-- The core is reset and starts its self-test; ARR_PWR_CFG and ARR_SPARE keep their values. -/
def State.coreClear (s : State) (c : Nat) : State :=
  (s.modCore c CoreSt.afterReset).resetRegs (aCore c 0) 0x10000 fun a => a == aArr c 0x050 || a == aArr c 0x008

/-- The reset latch of the step (R221). -/
def State.latchReset (s : State) : State := { s with step := { s.step with rstLatch := true } }

/-- A core reset; one on a core already in reset, or in a half in reset, has no further effect (R428). -/
def State.coreResetNow (s : State) (c : Nat) : State :=
  if (s.core c).ready && !(s.half (halfOf c)).inReset then ((s.coreClear c).latchReset).bump 0x40040 else s

/-! ## Half reset (R349, R355, R369, R426) -/

/-- Every queue pair goes into its error state (R349). -/
def HostSt.qpErrors (h : HostSt) : HostSt :=
  { h with qps := h.qps.map fun p => (p.1, if p.2.exists_ then { p.2 with err := true, msg := none, wr := none } else p.2) }

/-- What a half reset of half 0 does to the lead's own state: sessions end without CLOSE, commands are dropped. -/
def State.leadDown (s : State) : State :=
  let s1 := (upto 16).foldl (fun q i => q.freeSess i) (s.debugEnd 3)
  { s1 with
    ctl := { s1.ctl with own := s1.ctl.own.unbound, cmdq := [], readq := [], pend := none, fwd := none, hello := 0 }
    host := s1.host.qpErrors }

/-- A half reset begins; one of a half already in reset has no further effect (R428). -/
def State.halfResetNow (s : State) (h : Nat) : State :=
  if (s.half h).inReset then s
  else
    let s0 := if h = 0 then s.leadDown else s.modCtl fun k => { k with fwd := none }
    let s1 := s0.cutLoad stBusy
    let s2 := s1.modHalf h fun k => { k with inReset := true, up := false, armed := false, hbLost := false }
    let s3 := (seqFrom (48 * h) 48).foldl State.coreClear { s2 with side := { s2.side with hb := [], echo := 0 } }
    let s4 := (seqFrom (6 * h) 6).foldl
      (fun q j => q.modStack j fun x => if x.f.st = .on then { x with selfRefresh := true } else x) s3
    ((s4.resetRegs (aHlf h 0) 0x1000 fun _ => false).latchReset).bump 0x40044

/-! ## The Run function (R419 to R424, R429) -/

/-- The module is on its way back to Run. -/
def State.returnToRun (s : State) : State :=
  let r := s.pwr.run.enable
  { s with pwr := { s.pwr with run := r.1, target := if r.1.st = .starting then 0 else s.pwr.target } }

/-- A core reset (kind 0) or half reset (kind 1). -/
def State.resetNow (s : State) (kind target : Nat) : State := if kind = 0 then s.coreResetNow target else s.halfResetNow target

/-- A reset that waits for Run where the module is not there (R429). -/
def State.orderReset (s : State) (kind target : Nat) : State :=
  if s.pstate = .run ∧ s.pwr.run.st = .on then s.resetNow kind target
  else
    let s1 := s.returnToRun
    { s1 with pwr := { s1.pwr with resets := s1.pwr.resets ++ [(kind, target)] } }

/-- UPSHIFT is sent on every link that carries groups as the module leaves Rest; one that is changing its rate sends it once it
has changed (R266, R421). -/
def State.upshiftAll (s : State) : State :=
  (upto 6).foldl
    (fun q l =>
      let k := q.link l
      if k.st.carries then q.upshift l else if k.st = .shifting then q.modLink l fun x => { x with upOwn := true } else q)
    s

/-- Stacks that are ON leave self-refresh, but for those of a half in reset. -/
def State.wakeStacks (s : State) : State :=
  (upto 12).foldl
    (fun q j => if (q.half (j / 6)).inReset then q else q.modStack j fun x => { x with selfRefresh := false }) s

/-- Stacks that are ON go to self-refresh. -/
def State.sleepStacks (s : State) : State :=
  (upto 12).foldl (fun q j => q.modStack j fun x => if x.f.st = .on then { x with selfRefresh := true } else x) s

/-- The module is in Run: arrays begin COLD, and resets that waited are carried out (R420, R429). -/
def State.enterRun (s : State) : State :=
  let was := s.pstate
  let s1 := { s with
    pstate := .run
    pwr := { s.pwr with run := { st := .on }, target := 0, resets := [] }
    cores := mapVals {} s.cores fun k => { k with arr := { k.arr with pwr := .cold, level := 0, timer := 0 } } }
  let s2 := if was = .rest then s1.wakeStacks.upshiftAll else s1
  s.pwr.resets.foldl (fun q p => q.resetNow p.1 p.2) s2

/-- The power state named by TARGET of PWR_STAT. -/
def PState.ofTarget (n : Nat) : PState := if n = 2 then .rest else if n = 1 then .idle else .run

/-- The stop of the Run function completes: Idle or Rest, or on to Run where that waits or a reset waits for it (R423, R424,
R429). A change between Idle and Rest passes through Run (R420). -/
def State.leaveRun (s : State) : State :=
  let p := PState.ofTarget s.pwr.target
  let f := if s.pwr.resets = [] then s.pwr.run.stopped else { st := .starting }
  let s0 := if s.pstate = .rest ∧ p = .idle then s.wakeStacks.upshiftAll else s
  let s1 := { s0 with
    pstate := p
    pwr := { s0.pwr with run := f, target := if f.st = .starting then 0 else s.pwr.target } }
  if p = .rest then s1.sleepStacks else s1

/-! ## The power stage (R417) -/

def State.modPwr (s : State) (f : PwrSt → PwrSt) : State := { s with pwr := f s.pwr }

/-- The power stage starts where PWR_EN is high and the input in range, both for 10 ms, and no trip holds it off (R417, R479);
every function is at its reset value. -/
def State.powerOn (s : State) : State :=
  if s.pstate == .off && s.pwr.pwrEn && s.pwr.inRange && decide (s.pwr.inSince + 10000000 ≤ s.now) && !s.pwr.tripped then
    { s with pstate := .run, clk := { s.clk with gates := [] } }.modPwr fun p => { p with pwrGood := true, run := { st := .on } }
  else s

/-! ## Stacks -/

/-- A stack's contents are gone, and read as zeros from its next start (R424). -/
def State.zeroStack (s : State) (j : Nat) : State :=
  let out := fun (k : Nat) => decide (stackOfKey k ≠ some j)
  { s with
    mem := s.mem.filter fun p => out p.1
    ecc := s.ecc.filter fun e => out e.key
    ceSeen := s.ceSeen.filter fun p => out p.1 }

/-! ## Module resets (R426, R427, R461, R466, R469) -/

/-- The security block over a module reset or loss of power: flash and fuses stay, an update in progress is cut. -/
def SecSt.rebooted (x : SecSt) : SecSt :=
  let cut := decide (x.fwu.st ≠ 0)
  let y := if cut && decide (x.fwu.kind ≠ 2) && decide (x.fwu.data ≠ []) then x.spoil x.target else x
  { slot0 := y.slot0, slot1 := y.slot1, next := y.next, run := y.next, fuseM := y.fuseM, fuseC := y.fuseC, setVer := y.setVer
    trust := y.trust, recovery := y.recovery, anchorDig := y.anchorDig, cert := y.cert
    fwu := { last := if cut then 6 else 0 } }

/-- What every module reset keeps: the queue, the model's own counters and outputs, fuses, flash and the power pins. -/
def State.rebooted (s : State) : State :=
  ({ pending := s.pending, now := s.now, freeCtr := s.freeCtr, fuse := s.fuse, sec := s.sec.rebooted
     ctl := { out := s.ctl.out }
     pwr := { s.pwr with run := { st := .on }, target := 0, stkEn := 0xFFF, resets := [] } } : State).newChallenge

/-- A stack over a module warm reset: one that is ON keeps its contents in self-refresh. -/
def StackSt.warm (x : StackSt) : StackSt := if x.f.st = .on then { x with f := { st := .on }, selfRefresh := true } else { x with f := {} }

/-- A module warm reset with its cause (R365, R409, R426, R427, R430). -/
def State.warmReset (s0 : State) (cause : Nat) : State :=
  let s := s0.cutFill
  let t := s.rebooted
  let t1 := { t with
    timeCount := s.timeCount
    mem := s.mem, ecc := s.ecc, ceWin := s.ceWin
    stks := mapVals {} s.stks StackSt.warm
    regs := s.regs.filter fun p => p.1 == 0x40048 || p.1 == 0x4004C
    step := { committed := s.step.committed, torn := s.step.torn || decide (s.step.phase = Phase.committing) }
    ev := { lastFatal := s.ev.lastFatal }
    boot := { warm := true }
    ctl := { t.ctl with own := { epoch := s.ctl.own.epoch }, mirror := { epoch := s.ctl.mirror.epoch } }
    pwr := { t.pwr with cause := cause, meas := { energy := t.pwr.meas.energy, at_ := s.now / 1000000 } } }
  let t2 := t1.bump 0x40048
  match s.ctl.load with
  | none => t2
  | some l => t2.cutMark l

/-- The module enters Off: everything on the main rails is lost, every function is OFF, the bypasses close; power control keeps
its own (R422, R426, R434, R435). -/
def State.powerOff (s : State) : State :=
  let t := s.rebooted
  let t1 := { t with
    pstate := .off
    regs := s.regs.filter fun p => p.1 == 0x4004C
    pwr := { t.pwr with run := {}, pwrGood := false, energyHi := 0, meas := { at_ := s.now / 1000000 } }
    clk := { t.clk with gates := (upto gateNodes).map fun n => (n, {}) } }
  match s.ctl.load with
  | none => t1
  | some l => t1.cutMark l

end Sys2Proof.Machine
end

