-- ==== Sys2Proof/Machine/Boot.lean ====
section
/-! DEFINITION. Power and reset pins, trips and warnings (R417, R422, R425, R430 to R434), straps and roles (R17, R20, R256),
the boot of the firmware (R455 to R458) and the end of start-up (R431). -/

namespace Sys2Proof.Machine

def State.modBoot (s : State) (f : BootSt → BootSt) : State := { s with boot := f s.boot }

/-! ## Power (R417, R422, R430) -/

/-- PWR_EN_RISE: after a trip only where PWR_EN was low for 100 ms (R434). -/
def execPwrEnRise (s : State) : Host.Outcome State Fault Refusal :=
  if s.pwr.pwrEn then .next s
  else
    let long := decide (s.pwr.lowAt + 100000000 ≤ s.now)
    let s1 := s.modPwr fun p =>
      { p with pwrEn := true, inSince := s.now, tripped := p.tripped && !long, cause := if p.tripped && long then 3 else 0 }
    .next s1

/-- PWR_EN_FALL: the module enters Off; THERM_TRIP_N is released. -/
def execPwrEnFall (s : State) : Host.Outcome State Fault Refusal :=
  if s.pwr.pwrEn then
    let s1 := if s.pstate = .off then s else s.powerOff
    .next (s1.modPwr fun p => { p with pwrEn := false, lowAt := s.now, thermN := false })
  else .next s

/-- The input range of R417 in mV. -/
def inputOk (mv : Nat) : Bool := decide (46000 ≤ mv) && decide (mv ≤ 56000)

/-- INPUT_VOLTAGE_CHANGE: leaving or entering the range is reported while the module runs; while it is Off, the time that the
power stage waits for begins as the input enters the range. -/
def execInputVoltageChange (mv : BitVec 16) (s : State) : Host.Outcome State Fault Refusal :=
  let v := mv.toNat
  if v < 30000 then .next s
  else
    let ok := inputOk v
    let s1 := s.modPwr fun p => { p with inRange := ok, inSince := if ok && !p.inRange then s.now else p.inSince }
    if ok = s.pwr.inRange then .next s1
    else if s.pstate = .off then .next s1
    else .next (s1.post 0 0x04 0 (if ok then .notice else .warning) (if ok then 2 else 1) (leBytes 4 v))

/-- STANDBY_LOSS: below 30 V the module enters Off and power control keeps no trip. -/
def execStandbyLoss (mv : BitVec 16) (s : State) : Host.Outcome State Fault Refusal :=
  if mv.toNat < 30000 then
    let s1 := if s.pstate = .off then s else s.powerOff
    .next ((s1.setRaw 0x4004C 0).modPwr fun p =>
      { p with trip := 0, sensor := 0, tripped := false, thermN := false, inRange := false, cause := 0 })
  else .next s

/-- The bit of PWR_TRIP and the sensor of a trip (R433, R436). -/
def TripCause.bit : TripCause → BitVec 4
  | .otDie _ => 1
  | .otStack _ => 2
  | .oc => 4
  | .uv => 8

def TripCause.sensor : TripCause → Option Nat
  | .otDie h => some h
  | .otStack j => some (2 + j)
  | _ => none

/-- TRIP: the rails go, the cause is latched, a thermal one drives THERM_TRIP_N low. Which of several thermal sensors SENSOR
shows is not stated (R434; log 4). -/
def execTrip (causes : List TripCause) (s : State) : Host.Outcome State Fault Refusal :=
  if decide (s.pstate ≠ .off) && s.pwr.pwrGood && !causes.isEmpty then
    let hot := causes.filterMap TripCause.sensor
    let pick := nth s.pwr.sensor hot ((Config.freeWord s.freeCtr).toNat % hot.length)
    let s1 := ((s.bump 0x4004C).powerOff).bumpFree 1
    .next (s1.modPwr fun p =>
      { p with
        trip := causes.foldl (fun b c => b ||| c.bit) p.trip, sensor := pick, tripped := true
        thermN := p.thermN || !hot.isEmpty })
  else .next s

/-- POWER_WARN_CHECK (R432). -/
def execPowerWarnCheck (watts : BitVec 16) (s : State) : Host.Outcome State Fault Refusal :=
  .next (if s.boot.released && decide (field (s.raw 0x40024) 31 16 < watts.toNat) then
      s.post 0 0x04 0 .warning 5 (leBytes 2 watts.toNat) else s)

/-- DIE_TEMP_WARN (R432). -/
def execDieTempWarn (h : HalfId) (temp : Byte) (s : State) : Host.Outcome State Fault Refusal :=
  .next (if s.boot.released && decide (field (s.raw 0x40024) 15 8 < temp.toNat) then
      s.post h 0x04 0 .warning 6 (leBytes 1 h ++ leBytes 1 temp.toNat) else s)

/-! ## Reset and straps (R17, R20, R256, R430, R431) -/

/-- MOD_RESET_N_LOW: a module warm reset; one that is still asserted has no further effect (R425, R428). -/
def execModResetNLow (s : State) : Host.Outcome State Fault Refusal :=
  let s1 := if decide (s.pstate ≠ .off) && s.boot.released then s.warmReset 1 else s
  .next (s1.modPwr fun p => { p with resetN := false })

/-- A fault of the position straps (R256). -/
def strapBad (x : BitVec 10) : Bool :=
  let ones := fun (l : List Nat) => (l.filter fun i => bit x i).length
  decide (ones [0, 2, 4, 6, 8] % 2 = 1) || decide (ones [1, 3, 5, 7, 9] % 2 = 1) || decide (2 ≤ field x 7 6)
    || (decide (field x 7 6 = 0) && decide (2 ≤ field x 5 4))

/-- LEAD_STATE of two package straps; `true` is the half-0 strap (R20, R25). -/
def leadOf (pkg0 pkg1 : Bool) : Nat := if pkg0 && pkg1 then 2 else if !pkg0 && !pkg1 then 1 else 0

/-- A stack starts where PWR_STK_CTL enables it; one kept ON over a warm reset stays (R424, R431). -/
def StackSt.boot (x : StackSt) : StackSt := if x.f.st = .on then x else { x with f := { st := .starting } }

/-- RESET_RELEASE: start-up begins: straps and roles are read, the bridge and the stacks start (R17, R256, R431). Where the
half-role straps of both halves agree, LEAD of both is 0, which the manual leaves open (R26; log 29). -/
def execResetRelease (strap : BitVec 10) (pkg0 pkg1 : Bool) (s : State) : Host.Outcome State Fault Refusal :=
  if decide (s.pstate ≠ .off) && s.pwr.pwrGood && !s.boot.released then
    let bad := strapBad strap
    let ls := leadOf pkg0 pkg1
    let s1 := (s.modBoot fun b =>
      { b with
        released := true, at_ := s.now, slot := s.sec.next, tried := 0, strap := strap, strapFault := bad, leadState := ls }).modPwr fun p =>
        { p with resetN := true }
    let s2 := { s1 with bridge := { s1.bridge with training := true } }
    let s3 := (s2.modHalf 0 fun h => { h with lead := decide (ls = 0), since := s.now }).modHalf 1 fun h => { h with since := s.now }
    let s4 := (upto 12).foldl (fun q j => if s.pwr.stkEn.getLsbD j then q.modStack j StackSt.boot else q) s3
    let s5 := if bad || decide (ls ≠ 0) then
        s4.post 0 0x00 0 .fatal 1 (leBytes 2 strap.toNat ++ leBytes 1 ls) else s4
    .next (if ls = 0 then s5 else (s5.enterHeld 0 0).enterHeld 1 0)
  else .next s

/-! ## Firmware (R455 to R458) -/

/-- A slot passes the checks of R455 in their order. -/
def SecSt.passes (x : SecSt) (slot : Nat) (v : SlotCheck) : Bool :=
  let f := x.slotOf slot
  f.valid && v.sigOk && decide (x.fuseM ≤ f.svnM) && decide (x.fuseC ≤ f.svnC) && v.digestOk

/-- BOOT_SLOT_CHECK: once the root PLLs run at their rate, or coast, the boot ROM checks a slot: the first that passes runs,
else the other is checked; where neither passes the module stays in the boot ROM (R431, R455, R456). The manual gives the
failed check no code (log 4). -/
def execBootSlotCheck (v : SlotCheck) (s : State) : Host.Outcome State Fault Refusal :=
  if s.boot.released && !s.clk.boot && !s.clk.slewing && !s.boot.fw && !s.sec.romOnly then
    let i := s.boot.slot
    if s.sec.passes i v then
      let f := s.sec.slotOf i
      let s1 := (s.modSec fun x => { x with run := i, fallback := decide (s.boot.tried ≠ 0), rom := v.romDigest, mgmt := v.mgmtDigest })
      let s2 := (s1.logAdd 1 none v.romDigest).logAdd 2 (some (f.ver.toNat, f.svnM)) v.mgmtDigest
      let s3 := (s2.modBoot fun b => { b with fw := true })
      let s4 := { s3 with host := { s3.host with training := true, trainAt := s.now } }
      let run := fun (h : HalfSt) => { h with up := !h.inReset }
      .next ((s4.modHalf 0 run).modHalf 1 run)
    else if s.boot.tried = 0 then
      .next ((s.modBoot fun b =>
        { b with slot := 1 - i, tried := 1, failed := (Config.freeWord s.freeCtr).toNat % 256 }).bumpFree 1)
    else .next (s.modSec fun x => { x with romOnly := true })
  else .next s

/-- CORE_FW_LOAD: once the bridge is trained and the stacks have started, the core firmware is loaded (R431); where its digest
differs every core stays in reset. The anchor store is entered into the log after it (R457, R461). -/
def execCoreFwLoad (agree : Bool) (digest : BitVec 384) (s : State) : Host.Outcome State Fault Refusal :=
  let ready := !s.bridge.training && (upto 12).all fun j => (s.stack j).f.st != .starting
  if s.boot.fw && ready && !s.boot.coreFw && !s.sec.coreFwBad then
    let f := s.sec.slotOf s.sec.run
    let s1 := if agree then
        (((s.modSec fun x => { x with coreFw := digest }).modBoot fun b => { b with coreFw := true }).logAdd 3
          (some (f.ver.toNat, f.svnC)) digest)
      else (s.modSec fun x => { x with coreFwBad := true }).post 0 0x02 0 .fatal 2 (leBytes 1 s.sec.run)
    .next (s1.logAdd 7 none s.sec.anchorDig)
  else .next s

/-- The fuses advance to the running slot (R458). -/
def State.burnFuses (s : State) : State :=
  let x := s.sec
  let f := x.slotOf x.run
  let m := max x.fuseM f.svnM
  let k := max x.fuseC f.svnC
  if m = x.fuseM ∧ k = x.fuseC then s
  else (s.modSec fun y => { y with fuseM := m, fuseC := k }).post 0 0x02 0 .notice 5 (leBytes 1 m ++ leBytes 1 k)

/-- STARTUP_COMPLETE: every core has ended its self-test, or none will, and the host port is up; Aukor is served, and the reset
cause, a trip, a fallback and TORN are reported (R235, R431, R434, R455, R458). -/
def execStartupComplete (s : State) : Host.Outcome State Fault Refusal :=
  let cores := s.sec.coreFwBad || (s.boot.coreFw && (upto 96).all fun c => (s.core c).ready)
  if s.boot.fw && !s.boot.done && s.host.up && cores then
    let p := s.pwr
    let s1 := (s.modBoot fun b => { b with done := true }).post 0 0x04 0 .notice 3 (leBytes 1 p.cause ++ leBytes 1 p.trip.toNat)
    let s2 := if p.cause = 3 then s1.post 0 0x04 0 .fatal 4 (leBytes 1 p.trip.toNat ++ leBytes 1 p.sensor) else s1
    let s3 := if s.sec.fallback then s2.post 0 0x02 0 .error 1 (leBytes 1 s.sec.run ++ leBytes 1 s.boot.failed) else s2
    let s4 := s3.burnFuses
    .next (if s.step.torn then s4.post 0 0x0B 0 .fatal 9 [] else s4)
  else .next s

end Sys2Proof.Machine
end

