-- ==== Sys2Proof/Machine/FwdOps.lean ====
section
/-! DEFINITION. What the commands of the owner do to cores, links, registers and memory, each part at the half that holds its
target, and the parts that the lead forwards (R16, R267, R275 to R277, R359 to R362, R369, R423, R426, R490). -/

namespace Sys2Proof.Machine

/-! ## Links (R267, R275 to R277, R423) -/

/-- LINK_PARK on one link: the links OFF and PARKED stay; a deferred LINK_REJOIN of a link in PARKING lapses. -/
def State.parkLink (s : State) (l : Nat) : State :=
  match (s.link l).st with
  | .off => s
  | .parked => s
  | .parking => s.modLink l fun k => { k with pend := false }
  | _ => (s.lostLink l).modLink l fun k => { k with st := .parking, since := s.now }

/-- LINK_REJOIN on one link, and its status: a link OFF or PARKED trains where its bypass is open and nothing keeps it OFF;
one in PARKING trains once it is parked. -/
def State.rejoinLink (s : State) (l : Nat) : Effect :=
  match (s.link l).st with
  | .off => (if s.bypass.getLsbD (l / 2) || s.keptOff l then s else s.trainLink l).accept
  | .parked => (if s.bypass.getLsbD (l / 2) || s.keptOff l then s else s.trainLink l).accept
  | .parking => (s.modLink l fun k => { k with pend := true }, stDeferred)
  | _ => s.accept

/-- The links of a mask that half `h` holds. -/
def linksOf (mask h : Nat) : List Nat := (upto 6).filter fun l => mask.testBit l && decide (l % 2 = h)

/-- Park the links of a mask at one half. -/
def State.parkLinks (s : State) (mask h : Nat) : State := (linksOf mask h).foldl State.parkLink s

/-- Rejoin the links of a mask at one half; the most severe status counts. -/
def State.rejoinLinks (s : State) (mask h st : Nat) : Effect :=
  (linksOf mask h).foldl (fun (q : Effect) l => let r := q.1.rejoinLink l; (r.1, worse q.2 r.2)) (s, st)

/-- Whether a link reset is in progress: its training attempt has not ended (R425, R428). -/
def LinkSt.inReset (k : LinkSt) : Bool := k.underReset && (k.st == .training || k.st == .ident)

/-- A link reset: packets waiting are lost and the link trains again on 16 lanes; one that is kept OFF stays, and a second
reset has no further effect (R276, R428). -/
def State.linkResetNow (s : State) (l : Nat) : State :=
  let k := s.link l
  if k.st = .off ∨ k.inReset then s
  else ((s.lostLink l).retrain l).modLink l fun k => { k with underReset := true, pend := false }

/-! ## Threads (R235, R490) -/

def lowCores : BitVec 96 := BitVec.ofNat 96 (2 ^ 48 - 1)

/-- Whether a mask names a core of half 1. -/
def namesFar (cores : BitVec 96) : Bool := cores &&& ~~~ lowCores != 0

/-- HALT of cores at their half: at once but during COMMITTING, when it waits for the end of the commit; `st` is the status of
the other half's part (R235, R490). -/
def State.haltTry (s : State) (cores : BitVec 96) (st : Nat) : Effect :=
  if s.step.phase = .committing then
    let r : StartReq := { halt := true, cores := cores, threads := 0, entry := 0, arg := 0 }
    ({ s with step := { s.step with deferred := s.step.deferred ++ [r] } }, stDeferred)
  else (s.haltCores cores, st)

/-- A START that may be tried: deferred while a vote or commit runs, refused where R490 or R235 says so. -/
def State.startTry (s : State) (r : StartReq) : Effect :=
  if s.step.phase = .uncertain ∨ s.startOk r = false then s.reject
  else if s.step.phase.defers then ({ s with step := { s.step with deferred := s.step.deferred ++ [r] } }, stDeferred)
  else (s.startNow r).accept

/-! ## Fabric and power (R311, R420, R423) -/

/-- FABRIC_QUIESCE: the staged copy takes the active one. -/
def State.quiesceNow (s : State) : State :=
  if s.rt.quiesced then s
  else { s with rt := { s.rt with quiesced := true, resumeFail := false, staged := false, tblStaged := s.rt.tbl, dlStaged := s.rt.dl } }

/-- FABRIC_RESUME: a staged copy becomes active where the fabric is drained, or was until an arrival of this cycle (R311, R316). -/
def State.resumeNow (s : State) : Effect :=
  if !s.rt.quiesced then s.accept
  else if !s.rt.staged then ({ s with rt := { s.rt with quiesced := false } }).accept
  else if s.drained || s.rt.undrainedAt == some s.now then
    ({ s with rt := { s.rt with quiesced := false, staged := false, tbl := s.rt.tblStaged, dl := s.rt.dlStaged } }).accept
  else ({ s with rt := { s.rt with resumeFail := true } }).reject

/-- Whether R420 lets the module leave Run for state `t`. -/
def State.mayLeave (s : State) (t : Nat) : Bool :=
  (s.cores.all fun p => !p.2.threadsBusy && !(p.2.blockBusy 0) && !(p.2.blockBusy 2))
    && (decide (t = 1)
      || ((s.step.phase == .idle || s.step.phase == .failed) && s.outstanding == 0 && decide (s.sec.fwu.st = 0)))

/-- SET_POWER_STATE for Idle (1) or Rest (2): the disable command of the Run function. One that abandons a return to Run for
the other of the two states leaves Run as well, so R420 must allow it. -/
def State.disableRun (s : State) (t : Nat) : Effect :=
  let may := s.mayLeave t
  if s.pwr.run.st = .starting ∧ PState.ofTarget t ≠ s.pstate ∧ may = false then s.reject
  else
    let r := s.pwr.run.disable may (s.pwr.target == t)
    let go := s.pwr.run.st == .starting || (s.pwr.run.st == .on && decide (r.2 = 0))
    ({ s with pwr := { s.pwr with run := r.1, target := if go then t else s.pwr.target } }, r.2)

/-- SET_POWER_STATE. -/
def State.powerTry (s : State) (t : Nat) : Effect := if t = 0 then (s.returnToRun, s.pwr.run.enable.2) else s.disableRun t

/-! ## Memory (R185, R362) -/

/-- The status of a place that cannot be reached; a stack that is not ON has no status of its own in the manual (R172,
R358; log 30). -/
def Acc.status : Acc → Nat
  | .ok => stAccepted
  | .addr => stAddr
  | .bridge => stBridge
  | .halfReset => stBusy
  | .stackOff => stRefused
  | .resting => stRefused

/-- Whether a write touches what R362 closes: the program region of a running core, the half-cosine table, the event ring in
use, the trace buffer. -/
def State.ownerClosed (s : State) (a n : Nat) : Bool :=
  (s.cores.any fun p => decide (p.2.state = 2) && (let r := s.prog p.1; overlap a n r.1 r.2))
    || (match s.img.updPlace with | none => false | some (_, _, c) => overlap a n (commonsBase + c) 262144)
    || overlap a n (commonsBase + s.ev.ringOff) (32 * 2 ^ s.ev.ringLog2)
    || overlap a n (commonsBase + s.ev.traceOff) s.ev.traceLen

/-- Write memory as the owner, with its status (R185, R362). -/
def State.ownerWrite (s : State) (a : Nat) (l : List Byte) : Effect :=
  if !(s.oneRegion (a, l.length)) then (s, stAddr)
  else if s.ownerClosed a l.length then s.reject
  else
    match s.accRange 0 a l.length with
    | .ok =>
      let r := (s.cross 0 1 2 (s.farBytes 0 a l.length)).write a l 0x7F
      (r.1, if r.2 then stMem else stAccepted)
    | x => (s, x.status)

/-! ## Registers (R24, R359) -/

/-- Whether a register belongs to half 1 and is reached. -/
def State.farReg (s : State) (a : Nat) : Bool :=
  match decodeReg a with
  | none => false
  | some r => decide (s.rteHalf r = some 1) && decide (s.regReach r = 0)

/-- Perform register pairs in order, stop at the first that fails, and respond with the number done; pairs of half 1 go to the
follower (R16, R359). -/
def State.writePairs (s : State) (c : Cmd) : List (Word × Word) → Nat → Nat → State
  | [], done, st => s.respond c st (beBytes 2 done ++ zeros 2)
  | (a, v) :: r, done, st =>
    if s.farReg a.toNat then s.forward c (.regs ((a, v) :: r) done st)
    else
      let q := s.writeReg a.toNat v
      if q.2 ≤ stDeferred then State.writePairs q.1 c r (done + 1) (worse st q.2)
      else q.1.respond c q.2 (beBytes 2 done ++ zeros 2)

/-! ## The parts of the follower (R16, R360, R370) -/

/-- The follower carries out its part, and the lead responds. A RESET is answered before it takes effect (R361). -/
def State.doFwd (s : State) (c : Cmd) : Fwd → State
  | .start r => let q := s.startTry r; q.1.respond c q.2
  | .halt cores st => let q := s.haltTry cores st; q.1.respond c q.2
  | .coreReset n => (s.respond c stAccepted).orderReset 0 n
  | .halfReset => (s.respond c stAccepted).orderReset 1 1
  | .linkReset l => (s.respond c stAccepted).linkResetNow l
  | .park links => (s.parkLinks links 1).respond c stAccepted
  | .rejoin links st => let q := s.rejoinLinks links 1 st; q.1.respond c q.2
  | .regs [] done st => s.respond c st (beBytes 2 done ++ zeros 2)
  | .regs ((a, v) :: r) done st =>
    let q := s.writeReg a.toNat v
    if q.2 ≤ stDeferred then q.1.writePairs c r (done + 1) (worse st q.2) else q.1.respond c q.2 (beBytes 2 done ++ zeros 2)
  | .mem a data => let q := s.ownerWrite a data; q.1.respond c q.2
  | .load l => s.modCtl fun k => { k with load := some l }
  | .quiesce => s.quiesceNow.respond c stAccepted
  | .resume => let q := s.resumeNow; q.1.respond c q.2
  | .power t => let q := s.powerTry t; q.1.respond c q.2

/-- A part that does not reach the follower: the command ends with a status, a load as one refused, whose CODE the manual does
not give (R16, R24, R399; log 4). -/
def State.failFwd (s : State) (c : Cmd) (p : Fwd) (st : Nat) (data : List Byte) : State :=
  match p with
  | .load _ => ((s.imgEnd 2 0 ⟨st, (Config.freeWord s.freeCtr).toNat % 256, 0xFE, 0⟩).bumpFree 1).respond c st
  | _ => s.respond c st data

/-- The data that go with a response before a forwarded part is done: the pairs of a WRITE_REG. -/
def Fwd.data : Fwd → List Byte
  | .regs _ done _ => beBytes 2 done ++ zeros 2
  | _ => []

/-- A command of both halves goes to the follower where it can be reached, else it ends with the status of R24. -/
def State.share (s : State) (c : Cmd) (p : Fwd) : State := if s.farStatus ≠ 0 then s.respond c s.farStatus else s.forward c p

/-- Where a part is only the lead's when half 1 is in its reset: the part of half 1 has nothing to act on (R428, R490). -/
def Fwd.inReset (p : Fwd) : Nat :=
  match p with
  | .halt _ st => st
  | .coreReset _ => stAccepted
  | .halfReset => stAccepted
  | .start _ => stRefused
  | _ => stBusy

end Sys2Proof.Machine
end

