-- ==== Sys2Proof/Machine/Cmd.lean ====
section
/-! DEFINITION. The owner's commands for the fabric, the links, the cores, resets, power, clocks, registers and memory (R235,
R267, R275 to R277, R311, R359 to R362, R407, R420 to R429, R490). -/

namespace Sys2Proof.Machine

/-! ## Fabric (R311) -/

/-- FABRIC_QUIESCE: the router of both halves, so the follower takes part (R360). -/
def execFabricQuiesce (hd : Head) (s : State) : Host.Outcome State Fault Refusal :=
  .next (s.critical hd opQuiesce [] fun c q =>
    if q.rt.quiesced then q.respond c stAccepted else q.share c .quiesce)

/-- FABRIC_RESUME. -/
def execFabricResume (hd : Head) (s : State) : Host.Outcome State Fault Refusal :=
  .next (s.critical hd opResume [] fun c q =>
    if !q.rt.quiesced then q.respond c stAccepted else q.share c .resume)

/-! ## Links (R275 to R277) -/

/-- LINK_PARK: the links of half 0 at once, those of half 1 by the follower. -/
def execLinkPark (hd : Head) (links : Byte) (s : State) : Host.Outcome State Fault Refusal :=
  let m := links.toNat
  .next (s.critical hd opLinkPark (beBytes 1 m ++ zeros 3) fun c q =>
    if linksOf m 1 = [] then (q.parkLinks m 0).respond c stAccepted
    else if q.farStatus ≠ 0 then q.respond c q.farStatus
    else (q.parkLinks m 0).forward c (.park m))

/-- The links of the axes of a mask. -/
def axisLinks (axes : Nat) : Nat := (upto 3).foldl (fun m a => if axes.testBit a then m + 3 * 4 ^ a else m) 0

/-- LINK_REJOIN: opens the bypasses of its axes and trains their links and the links named; refused in a bench slot and while
the router is not quiesced (R257, R275). -/
def execLinkRejoin (hd : Head) (axes links : Byte) (s : State) : Host.Outcome State Fault Refusal :=
  .next (s.critical hd opLinkRejoin (beBytes 1 axes.toNat ++ beBytes 1 links.toNat ++ zeros 2) fun c q =>
    let m := axisLinks axes.toNat ||| links.toNat
    let q1 := { q with bypass := q.bypass &&& ~~~ (axes.setWidth 3) }
    if q.bench || !q.rt.quiesced then q.respond c stRefused
    else if linksOf m 1 = [] then let r := q1.rejoinLinks m 0 stAccepted; r.1.respond c r.2
    else if q.farStatus ≠ 0 then q.respond c q.farStatus
    else let r := q1.rejoinLinks m 0 stAccepted; r.1.forward c (.rejoin m r.2))

/-! ## Cores (R490) -/

/-- START: carried out whole or refused whole. -/
def execStart (hd : Head) (cores : BitVec 96) (threads entry : Word) (arg : DWord) (s : State) : Host.Outcome State Fault Refusal :=
  .next (s.critical hd opStart (argsStart cores threads entry arg) fun c q =>
    let r : StartReq := { halt := false, cores := cores, threads := threads, entry := entry, arg := arg }
    if entry.toNat % 8 ≠ 0 ∨ cores = 0 ∨ threads = 0 then q.respond c stBad
    else if q.step.phase = .uncertain then q.respond c stRefused
    else if namesFar cores && !q.bridge.dataUp then q.respond c stBridge
    else if !(q.startOk r) then q.respond c stRefused
    else if namesFar cores then q.forward c (.start r)
    else let e := q.startTry r; e.1.respond c e.2)

/-- HALT: the cores of half 0, then those of half 1 by the follower. -/
def execHalt (hd : Head) (cores : BitVec 96) (s : State) : Host.Outcome State Fault Refusal :=
  .next (s.critical hd opHalt (coreMask cores) fun c q =>
    if namesFar cores && !q.bridge.dataUp then q.respond c stBridge
    else if namesFar cores && !(q.half 1).inReset then
      let r := q.haltTry (cores &&& lowCores) stAccepted
      r.1.forward c (.halt (cores &&& ~~~ lowCores) r.2)
    else let r := q.haltTry cores stAccepted; r.1.respond c r.2)

/-! ## Resets (R361, R425 to R429) -/

/-- RESET of kind core. -/
def execResetCore (hd : Head) (target : BitVec 16) (s : State) : Host.Outcome State Fault Refusal :=
  let n := target.toNat
  .next (s.critical hd opReset (argsReset 0 n) fun c q =>
    if 96 ≤ n then q.respond c stBad
    else if n < 48 then (q.respond c stAccepted).orderReset 0 n
    else if q.bridge.dataUp = false then q.respond c stBridge
    else if (q.half 1).inReset then q.respond c stAccepted
    else q.forward c (.coreReset n))

/-- RESET of kind half. -/
def execResetHalf (hd : Head) (target : BitVec 16) (s : State) : Host.Outcome State Fault Refusal :=
  let n := target.toNat
  .next (s.critical hd opReset (argsReset 1 n) fun c q =>
    if 2 ≤ n then q.respond c stBad
    else if n = 0 then (q.respond c stAccepted).orderReset 1 0
    else if q.bridge.dataUp = false then q.respond c stBridge
    else if (q.half 1).inReset then q.respond c stAccepted
    else q.forward c .halfReset)

/-- RESET of kind link. -/
def execResetLink (hd : Head) (target : BitVec 16) (s : State) : Host.Outcome State Fault Refusal :=
  let n := target.toNat
  .next (s.critical hd opReset (argsReset 2 n) fun c q =>
    if 6 ≤ n then q.respond c stBad
    else if n % 2 = 0 then (q.respond c stAccepted).linkResetNow n
    else if q.farStatus ≠ 0 then q.respond c q.farStatus
    else q.forward c (.linkReset n))

/-- RESET of kind module warm, TARGET 0. -/
def execResetModuleWarm (hd : Head) (target : BitVec 16) (s : State) : Host.Outcome State Fault Refusal :=
  .next (s.critical hd opReset (argsReset 3 target.toNat) fun c q =>
    if target = 0 then (q.respond c stAccepted).warmReset 2 else q.respond c stBad)

/-- The record that a half takes from the other one as its reset ends (R369). -/
def State.restoreRecord (s : State) (h : Nat) : State :=
  if s.bridge.sideUp && (s.half (1 - h)).up then
    s.modCtl fun k => if h = 0 then { k with own := k.mirror.unbound } else { k with mirror := k.own }
  else s

/-- HALF_RESET_END: the controller of the half runs again, its stacks leave self-refresh, it restores the owner record and is
HELD (R369, R426). -/
def execHalfResetEnd (h : HalfId) (s : State) : Host.Outcome State Fault Refusal :=
  if (s.half h).inReset then
    let s1 := s.modHalf h fun k => { k with inReset := false, up := true, armed := false, hbLost := false, since := s.now }
    let s2 := (seqFrom (6 * h) 6).foldl (fun q j => q.modStack j fun x => { x with selfRefresh := decide (s.pstate = .rest) }) s1
    let s3 := if h.val = 0 then { s2 with side := { s2.side with sentAt := none } } else s2
    .next ((s3.restoreRecord h).enterHeld h 16)
  else .next s

/-! ## Power (R420, R423) -/

/-- SET_POWER_STATE Run: both halves change their state (R360). -/
def execSetPowerStateRun (hd : Head) (s : State) : Host.Outcome State Fault Refusal :=
  .next (s.critical hd opSetPower (beBytes 1 0 ++ zeros 3) fun c q => q.share c (.power 0))

/-- SET_POWER_STATE Idle. -/
def execSetPowerStateIdle (hd : Head) (s : State) : Host.Outcome State Fault Refusal :=
  .next (s.critical hd opSetPower (beBytes 1 1 ++ zeros 3) fun c q => q.share c (.power 1))

/-- SET_POWER_STATE Rest. -/
def execSetPowerStateRest (hd : Head) (s : State) : Host.Outcome State Fault Refusal :=
  .next (s.critical hd opSetPower (beBytes 1 2 ++ zeros 3) fun c q => q.share c (.power 2))

/-- FUNCTION_STARTED: a start completes (R423, R424). A stack of a half in reset starts again as the reset ends (R435). -/
def execFunctionStarted (k : FuncId) (s : State) : Host.Outcome State Fault Refusal :=
  match k with
  | .gate n => .next (if (s.gate n).st = .starting then s.setGate n { st := .on } else s)
  | .stack j =>
    if (s.stack j).f.st = .starting ∧ (s.half (j.val / 6)).inReset = false then
      .next ((s.zeroStack j).modStack j fun x => { x with f := { st := .on }, selfRefresh := decide (s.pstate = .rest) })
    else .next s
  | .run => .next (if s.pwr.run.st = .starting then s.enterRun else s)

/-- The failure of a start is reported. The manual gives no code for the function's kind (log 4). -/
def State.startFailed (s : State) (half n : Nat) : State :=
  (s.post half 0x04 0 .error 7 (leBytes 1 ((Config.freeWord s.freeCtr).toNat % 256) ++ leBytes 1 n)).bumpFree 1

/-- FUNCTION_START_FAILED: the function is OFF, and an ERROR event names it. -/
def execFunctionStartFailed (k : FuncId) (s : State) : Host.Outcome State Fault Refusal :=
  match k with
  | .gate n => .next (if (s.gate n).st = .starting then (s.setGate n {}).startFailed 0 n else s)
  | .stack j =>
    .next (if (s.stack j).f.st = .starting ∧ (s.half (j.val / 6)).inReset = false then
      (s.modStack j fun x => { x with f := {} }).startFailed 0 j else s)
  | .run =>
    .next (if s.pwr.run.st = .starting then { s with pwr := { s.pwr with run := {}, target := 0 } }.startFailed 0 0 else s)

/-- FUNCTION_STOPPED: a stop completes; a pending enable starts the function again. -/
def execFunctionStopped (k : FuncId) (s : State) : Host.Outcome State Fault Refusal :=
  match k with
  | .gate n => .next (if (s.gate n).st = .stopping then s.setGate n (s.gate n).stopped else s)
  | .stack j =>
    if (s.stack j).f.st = .stopping then
      .next ((s.zeroStack j).modStack j fun x => { x with f := x.f.stopped, selfRefresh := false })
    else .next s
  | .run => .next (if s.pwr.run.st = .stopping then s.leaveRun else s)

/-! ## Clocks (R407) -/

/-- CLOCK_SELECT. -/
def execClockSelect (hd : Head) (source link fallback : Byte) (s : State) : Host.Outcome State Fault Refusal :=
  let src := source.toNat
  let l := link.toNat
  .next (s.simple hd opClock ([source, link, fallback, 0]) fun q =>
    let x : ClkSel := { source := src, link := l, fallback := bit fallback 0 }
    if !(q.srcPresent src l) || (src == 2 && q.keptOff l) then (q, stRefused, [])
    else if q.clk.slewing then (q.modClk fun k => { k with deferred := some x, held := none }, stDeferred, [])
    else (q.applySel x, stAccepted, []))

/-! ## Registers and memory (R359, R362) -/

/-- WRITE_REG. -/
def execWriteReg (hd : Head) (pairs : List (Word × Word)) (s : State) : Host.Outcome State Fault Refusal :=
  .next (s.critical hd opWriteReg (argsPairs pairs) fun c q => q.writePairs c pairs 0 stAccepted)

/-- WRITE_MEM: a write that reaches half 1 is the follower's. -/
def execWriteMem (hd : Head) (addr : DWord) (data : List Byte) (s : State) : Host.Outcome State Fault Refusal :=
  let a := addr.toNat
  .next (s.critical hd opWriteMem (argsMem a data) fun c q =>
    let far := decide (0 < q.farBytes 0 a data.length)
    if q.oneRegion (a, data.length) && !(q.ownerClosed a data.length) && far && q.accRange 0 a data.length == .ok then
      q.forward c (.mem a data)
    else let e := q.ownerWrite a data; e.1.respond c e.2)

/-- FORWARDED_COMMAND: the follower carries out its part where the epoch is its mirror's, else both wait for a new claim; a
part that cannot reach it fails (R16, R24, R360, R369, R370). -/
def execForwardedCommand (s : State) : Host.Outcome State Fault Refusal :=
  match s.ctl.fwd with
  | none => .next s
  | some (c, p) =>
    let s1 := s.modCtl fun k => { k with fwd := none }
    if s.bridge.dataUp = false then .next (s1.failFwd c p stBridge p.data)
    else if (s.half 1).inReset then .next (s1.failFwd c p p.inReset p.data)
    else if (s.half 1).up = false then .next s
    else if s.isHeld then .next (s1.countRefused.failFwd c p stHeld p.data)
    else if c.epoch ≠ s.ctl.mirror.epoch then .next ((s1.enterHeld 1 8).countRefused.failFwd c p stHeld p.data)
    else .next (s1.doFwd c p)

end Sys2Proof.Machine
end

