-- ==== Sys2Proof/Machine/Sess.lean ====
section
/-! DEFINITION. The frames of Aukor sessions: setup, commands, ends (R350 to R357, R360, R361, R370). -/

namespace Sys2Proof.Machine

/-- The module takes Aukor frames: the host port is up and the lead serves (R350, R431). -/
def State.serves (s : State) : Bool := s.host.up && s.leadRuns

/-! ## Frames (R343, R344, R350, R351) -/

/-- A frame of one type for the module: taken at the management priority and at the Aukor port, in its layout; what is not is
dropped and counted, or answered as a datagram to no port (R342). -/
def State.aukorIn (s : State) (f : UdpIn) (type : Nat) : State × Option AukorIn :=
  let r := s.frameIn f.eth false
  if !r.2 then (r.1, none)
  else if f.port.toNat ≠ s.img.aukorPort then (r.1.noPort f.addr, none)
  else match aukorParse f.data with
    | none => (r.1.bump 0x70044, none)
    | some x => (r.1, if x.h.type = type then some x else none)

/-! ## Setup (R352 to R356) -/

/-- The version agreed with a client's range: the lower of the two highest; none where the ranges do not meet (R356). A range
that takes in other majors meets the module's where it holds one of its versions (log 61). -/
def aukorVer (vmin vmax : Nat) : Option Nat :=
  let v := min aukorMax vmax
  if vmin ≤ v ∧ 0x20 ≤ v then some v else none

/-- HELLO: answered with HELLO_REPLY, at most 64 in a second; a slot is taken where the versions meet and one is free. The module
draws NONCE_M, QM and SESSION, whose low bits are the slot, and signs with the random number `draw` (log 7). In a reply that sets nothing up the manual does not
state AGREED and SESSION (R352; log 4). -/
def execHello (eth : EthHead) (addr : AddrPair) (port : BitVec 16) (data : List Byte) (draw : Nat) (s : State) :
    Host.Outcome State Fault Refusal :=
  let f : UdpIn := ⟨eth, addr, port, data⟩
  if !s.serves then .next s
  else
    let r := s.aukorIn f 1
    let t := r.1
    match r.2 with
    | none => .next t
    | some x =>
      let fresh := decide (t.ctl.helloAt + sec1 ≤ t.now)
      let n := if fresh then 0 else t.ctl.hello
      if 64 ≤ n then .next t
      else
        let t1 := (t.modCtl fun k => { k with helloAt := if fresh then t.now else k.helloAt, hello := n + 1 }).bumpFree 1
        let w := (Config.freeWord t.freeCtr).toNat
        let part := fun (st ver : Nat) =>
          helloReplyPart st ver (Config.freeNonce t.freeCtr) t.fuse.serial (Config.freePoint t.freeCtr)
        let whole := fun (p : List Byte) (id : DWord) =>
          p ++ beBytes 96 (Config.deviceSign draw (Config.sha384 (helloCovered x.body p id))).toNat
        let refuse := fun (st : Nat) =>
          let id := BitVec.ofNat 64 w
          t1.emit (.helloReply f.addr id (whole (part st (w % 256)) id))
        match aukorVer (beAt x.body 0 1) (beAt x.body 1 1), (upto 16).find? fun i => decide ((t1.sess i).st = .free) with
        | none, _ => .next (refuse stVersion)
        | some _, none => .next (refuse stBusy)
        | some v, some i =>
          let id : DWord := BitVec.ofNat 64 ((w / 16 + 1) * 16 + i)
          let reply := whole (part stAccepted v) id
          let y : SessSt := { st := .setup, id := id, ver := BitVec.ofNat 8 v, addr := f.addr, at_ := t.now, hello := x.body, reply := reply }
          .next ((t1.modSess i fun _ => y).emit (.helloReply f.addr id reply))

/-- A KEY body in its layout: QC, a reserved byte, CERT_LEN, certificates, SIG_C (R352). -/
def keyBodyOk (l : List Byte) : Bool :=
  decide (196 ≤ l.length) && decide (beAt l 98 2 ≤ 4096) && l.length == 196 + beAt l 98 2 && res0 l 97 1

/-- What SIG_C covers: HELLO body, HELLO_REPLY body, KEY body up to SIG_C (R352). -/
def SessSt.keyCovered (x : SessSt) (l : List Byte) : List Byte := x.hello ++ x.reply ++ l.take (l.length - 96)

/-- The keys of a session from its KEY body: NONCE_C, NONCE_M and QM stand in HELLO and HELLO_REPLY (R353). -/
def SessSt.keyed (x : SessSt) (l : List Byte) : SessSt :=
  let qm := BitVec.ofNat 776 (beAt x.reply 44 97)
  let z := beBytes 48 (Config.ecdh qm (BitVec.ofNat 776 (beAt l 0 97))).toNat
  let prk := hkdfExtract (slice x.hello 4 32 ++ slice x.reply 4 32) z
  { x with c2m := sessionKey prk "c2m" x.id, m2c := sessionKey prk "m2c" x.id, frags := [], fragN := 0 }

/-- A failed authentication is counted and reported with the failures since the last record (R470, R471). -/
def State.authFailed (s : State) (step : Nat) : State :=
  let n := s.sec.authFails + 1
  let q := fun (t : State) => (mapGet {} t.ev.src (srcKey 0x02 0) : EvSrc).queue.length
  let s1 := (s.bump 0x2001C).post 0 0x02 0 .warning 9 (leBytes 1 step ++ leBytes 4 n)
  s1.modSec fun x => { x with authFails := if q s < q s1 then 0 else n }

/-- Fragments of a KEY, in index order. -/
def fragsOf (m : Map (Option (List Byte))) (n : Nat) : Option (List Byte) :=
  (upto n).foldl (fun acc i => match acc, mapGet none m i with | some a, some b => some (a ++ b) | _, _ => none) (some [])

/-- The slot in setup of a session number and address pair; a KEY from another pair is none of its frames (R343; log 61). -/
def State.setupOf (s : State) (id : DWord) (a : AddrPair) : Option Nat :=
  (upto 16).find? fun i => let x := s.sess i; decide (x.st = .setup) && decide (x.id = id) && decide (x.addr = a)

/-- KEY: a fragment is taken; the whole KEY is verified and answered. `signed` is the message over whose SHA-384 SIG_C verifies
under the end-entity key of a chain to the trust anchor, none where there is none, and `spki` that key's
SubjectPublicKeyInfo (R352, R353; log 7). -/
def execKey (eth : EthHead) (addr : AddrPair) (port : BitVec 16) (data spki : List Byte) (signed : Option (List Byte)) (s : State) :
    Host.Outcome State Fault Refusal :=
  let f : UdpIn := ⟨eth, addr, port, data⟩
  if !s.serves then .next s
  else
    let r := s.aukorIn f 3
    let t := r.1
    match r.2 with
    | none => .next t
    | some k =>
      match t.setupOf k.h.session f.addr with
      | none => .next t
      | some slot =>
        let x := t.sess slot
        let n := k.h.frag % 16
        if x.fragN ≠ 0 ∧ x.fragN ≠ n then .next (t.bump 0x70044)
        else
          let fr := mapIns x.frags (k.h.frag / 16) (some k.body)
          match fragsOf fr n with
          | none => .next (t.modSess slot fun y => { y with frags := fr, fragN := n })
          | some l =>
            if !(keyBodyOk l) then .next ((t.modSess slot fun y => { y with frags := [], fragN := 0 }).bump 0x70044)
            else
              let y := x.keyed l
              if signed = some (x.keyCovered l) then
                .next ((t.modSess slot fun _ =>
                  { y with st := .open_, key := keyIdOf spki, cout := 1, at_ := t.now, hello := [], reply := [] }).emit
                    (.keyReply y.peer stAccepted))
              else .next (((t.emit (.keyReply y.peer stAuth)).freeSess slot).authFailed 3)

/-- SESSION_SETUP_TIMEOUT: a setup not complete within 1 s. -/
def execSessionSetupTimeout (slot : SlotId) (s : State) : Host.Outcome State Fault Refusal :=
  let x := s.sess slot
  .next (if x.st = .setup ∧ x.at_ + sec1 ≤ s.now then s.freeSess slot else s)

/-- SESSION_IDLE_TIMEOUT: no valid frame for 120 s (R355). -/
def execSessionIdleTimeout (slot : SlotId) (s : State) : Host.Outcome State Fault Refusal :=
  let x := s.sess slot
  .next (if x.st = .open_ ∧ x.at_ + 120 * sec1 ≤ s.now then s.closeSess slot 1 else s)

/-! ## Tagged frames (R354) -/

/-- Check a tagged frame; the slot of its session where it is accepted. It is dropped and counted where no open session has its
number, its tag fails, its COUNTER is not greater than every one accepted, or its VER is not the agreed one; one from or to
another address than those on which the session began closes the session (R343, R351, R354; log 61). -/
def State.tagIn (s : State) (x : AukorIn) (a : AddrPair) : State × Option Nat :=
  match s.slotOf x.h.session with
  | none => (s.bump 0x70048, none)
  | some i =>
    let y := s.sess i
    if x.tag ≠ frameTag y.c2m x.covered then (s.bump 0x70048, none)
    else if x.h.counter ≤ y.cin then (s.bump 0x7004C, none)
    else if x.h.ver ≠ y.ver.toNat then (s.bump 0x70044, none)
    else if y.addr ≠ a then (s.closeSess i 2, none)
    else (s.modSess i fun z => { z with cin := x.h.counter, at_ := s.now }, some i)

/-- A tagged frame of one type, with the slot of its session. -/
def State.taggedIn (s : State) (f : UdpIn) (type : Nat) : State × Option (Nat × AukorIn) :=
  let r := s.aukorIn f type
  match r.2 with
  | none => (r.1, none)
  | some x => let q := r.1.tagIn x f.addr; (q.1, q.2.map fun i => (i, x))

/-- CLOSE from the client: the session closes, ownership stays (R355, R370). -/
def execClose (f : UdpIn) (s : State) : Host.Outcome State Fault Refusal :=
  if s.serves then
    let r := s.taggedIn f 8
    match r.2 with
    | none => .next r.1
    | some (i, _) => .next (r.1.closeSess i 0)
  else .next s

/-! ## Commands (R357, R358, R360, R361, R370) -/

/-- The command in a COMMAND frame of a slot (R357). -/
def cmdOf (slot : Nat) (x : AukorIn) : Cmd :=
  { slot := slot, sid := x.h.session, reqId := BitVec.ofNat 16 (beAt x.body 2 2), epoch := BitVec.ofNat 32 (beAt x.body 4 4)
    op := beAt x.body 0 2, args := x.body.drop 8 }

/-- A command of this session and REQ_ID that waits or executes. -/
def State.inFlight (s : State) (c : Cmd) : Bool :=
  let p := fun (d : Cmd) => d.slot == c.slot && d.sid == c.sid && d.reqId == c.reqId
  s.ctl.cmdq.any p || s.ctl.readq.any p || (match s.ctl.fwd with | none => false | some (d, _) => p d)
    || (match s.ctl.pend with | none => false | some m => (match m.cmd with | none => false | some d => p d))
    || (match s.ctl.load with | none => false | some l => p l.cmd)

/-- Whether a critical command of the owner's session waits or executes (R370). -/
def State.ownerBusy (s : State) : Bool :=
  let p := fun (d : Cmd) => s.ctl.own.sess == some d.slot && d.sid == s.ctl.own.sid
  s.ctl.cmdq.any p || (match s.ctl.fwd with | none => false | some (d, _) => p d)
    || (match s.ctl.pend with | none => false | some m => (match m.cmd with | none => false | some d => p d))
    || (match s.ctl.load with | none => false | some l => p l.cmd)

/-- A command that has arrived: answered again where its REQ_ID was answered before, refused where it is malformed, queued where
there is room (R356 to R358, R361, R370). -/
def State.arrive (s : State) (c : Cmd) : State :=
  let x := s.sess c.slot
  match x.kept.find? fun r => r.reqId == c.reqId with
  | some r => s.tagged c.slot fun n => .resp x.peer n r
  | none =>
    if s.inFlight c then s
    else if !(argsOk c.op c.args) then s.respond c stBad
    else if needsMinor x.ver.toNat c.op c.args then s.respond c stNotSupported
    else if !(Sys2Proof.Machine.critical c.op) then s.modCtl fun k => { k with readq := k.readq ++ [c] }
    else if 16 ≤ s.ctl.cmdq.length then s.respond c stBusy
    else if (c.op = opHandover ∨ c.op = opRelease) ∧ s.ctl.own.sess = some c.slot ∧ s.ctl.own.sid = c.sid ∧ s.ownerBusy = true then s.respond c stBusy
    else s.modCtl fun k => { k with cmdq := k.cmdq ++ [c] }

/-- COMMAND: a tagged frame that is accepted brings a command (R350, R354, R360). -/
def execCommand (ip : IpIn) (udp : UdpData) (s : State) : Host.Outcome State Fault Refusal :=
  if s.serves then
    let r := s.taggedIn ⟨ip.eth, ip.addr, udp.port, udp.data⟩ 5
    match r.2 with
    | none => .next r.1
    | some (i, x) => .next (r.1.arrive (cmdOf i x))
  else .next s

end Sys2Proof.Machine
end

