-- ==== Sys2Proof/Machine/Events.lean ====
section
/-! DEFINITION. The event unit: acceptance into the ring or the trace buffer (R438, R441, R442, R447), coalescing (R444), GAP
records (R445), streams (R443), telemetry (R450). -/

namespace Sys2Proof.Machine

/-! ## Records (R438) -/

/-- A record of 32 B; `cont` marks the second of a pair. -/
def Rec.encode (r : Rec) (cont : Bool) (pl : List Byte) : List Byte :=
  leBytes 8 r.time.toNat ++ leBytes 6 r.step.toNat ++ leBytes 2 r.attempt.toNat ++ leBytes 1 (r.cls.code + 8 * b2n cont + 16 * r.half)
    ++ leBytes 1 r.block ++ leBytes 1 r.inst ++ [0] ++ leBytes 2 r.code ++ leBytes 2 r.rep ++ slice pl 0 8

/-- The one or two records that stand for `r`. -/
def Rec.recs (r : Rec) : List (List Byte) :=
  r.encode false r.payload :: (match r.more with | none => [] | some p => [r.encode true p])

/-! ## GAP records (R445) -/

/-- The payload of a GAP. -/
def gapPay (n mask stage : Nat) (first : DWord) : List Byte :=
  leBytes 4 n ++ leBytes 1 mask ++ leBytes 1 stage ++ leBytes 2 (first.toNat % 65536)

def State.src (s : State) (k : Nat) : EvSrc := mapGet {} s.ev.src k
def State.modSrc (s : State) (k : Nat) (f : EvSrc → EvSrc) : State := { s with ev := { s.ev with src := mapMod {} s.ev.src k f } }

/-- A GAP of a stage goes into the queue of source `k`, and is counted. -/
def State.postGap (s : State) (k stage : Nat) (l : Loss) : State :=
  let h := if k / 256 = 0x20 ∨ k / 256 = 0x21 ∨ k / 256 = 0x22 ∨ k / 256 = 0x30 then k % 256 / 48
    else if k / 256 = 0x08 then k % 2 else if k / 256 = 0x0C ∧ k % 256 < 12 then k % 256 / 6 else if k / 256 = 0x10 then k % 256 else 0
  let r := { s.mkRec h 0x05 0 .notice 1 (gapPay l.n l.mask stage l.first) none with gap := true }
  let s1 := { s with ev := { s.ev with arrivals := s.ev.arrivals + 1 } }
  (s1.modSrc k fun q => { q with queue := q.queue ++ [{ r with seq := s.ev.arrivals }] }).bump 0x50050

/-- Report the losses of a source, stage by stage, where `due` says so of a stage. -/
def State.reportGaps (s : State) (k : Nat) (due : Loss → Bool) : State :=
  let a := (s.src k).loss0
  let s1 := if decide (0 < a.n) && due a then (s.modSrc k fun q => { q with loss0 := {} }).postGap k 0 a else s
  let b := (s.src k).loss1
  if decide (0 < b.n) && due b then (s1.modSrc k fun q => { q with loss1 := {} }).postGap k 1 b else s1

/-! ## Acceptance (R441, R442, R447) -/

/-- Entries of the ring, and of its reserved area. -/
def EvSt.entries (e : EvSt) : Nat := 2 ^ e.ringLog2
def EvSt.rsvEntries (e : EvSt) : Nat := e.entries / 16
def EvSt.mainEntries (e : EvSt) : Nat := e.entries - e.rsvEntries

/-- Module address of the entry of the main or reserved area for write count `n`. -/
def EvSt.entryAt (e : EvSt) (rsv : Bool) (n : Nat) : Nat :=
  commonsBase + e.ringOff + 32 * (if rsv then e.mainEntries + n % e.rsvEntries else n % e.mainEntries)

/-- Whether a session takes records of a class from a source (R443). -/
def SessSt.wants (x : SessSt) (r : Rec) : Bool :=
  decide (x.st = .open_) && x.classes.getLsbD r.cls.code
    && (field x.filter 15 8 == 0xFF || field x.filter 15 8 == r.block) && (field x.filter 7 0 == 0xFF || field x.filter 7 0 == r.inst)

/-- Every session that wants a record has it to send. -/
def State.offer (s : State) (r : Rec) (i : EvItem) : State :=
  s.modCtl fun k => { k with sess := mapVals {} k.sess fun x => if x.wants r then { x with queue := x.queue ++ [i] } else x }

/-- A record goes to its area of the ring; a pair stands in two entries (R438, R442). -/
def State.ringTake (s : State) (r : Rec) : State :=
  let fat : Bool := decide (r.cls = EvClass.fatal)
  let rsv : Bool := fat || decide (r.cls = EvClass.security)
  let n := if rsv then s.ev.wrRsv else s.ev.wrMain
  let rs := r.recs
  let s1 := (rs.zipIdx).foldl (fun (q : State) p => (q.write (q.ev.entryAt rsv (n + p.2)) p.1 0x7F).1) s
  let m := (n + rs.length) % 2 ^ 32
  let s2 := { s1 with ev := { s1.ev with
    wrRsv := if rsv then m else s1.ev.wrRsv, wrMain := if rsv then s1.ev.wrMain else m
    fatal := s1.ev.fatal || fat
    lastFatal := if fat then r.encode false r.payload else s1.ev.lastFatal } }
  s2.offer r (.ring rsv n r.time r.cls.code rs.length)

/-- A TRACE record goes to the trace buffer, or is dropped once it has stopped (R447). -/
def State.traceTake (s : State) (r : Rec) : State :=
  let n := s.ev.traceLen / 32
  let stop := bit (s.raw 0x50014) 31
  let i := s.ev.traceIdx
  if s.ev.traceStopped ∨ (stop = true ∧ n ≤ i) then
    { s with ev := { s.ev with traceStopped := true } }.bump 0x5004C
  else
    let at_ := i % n
    let s1 := (s.write (commonsBase + s.ev.traceOff + 32 * at_) (r.encode false r.payload) 0x7F).1
    let nx := if stop then at_ + 1 else (at_ + 1) % n
    { s1 with ev := { s1.ev with
        traceIdx := nx, traceStopped := stop && decide (n ≤ nx), traceSeq := mapIns s1.ev.traceSeq at_ r.seq } }.offer r
      (.trace at_ r.seq r.time 1)

/-- Whether the lead takes records of a half (R13, R446). -/
def State.takesFrom (s : State) (h : Nat) : Bool :=
  s.boot.fw && (s.half 0).up && !(s.half 0).inReset && (h == 0 || (s.bridge.dataUp && (s.half 1).up && !(s.half 1).inReset))

/-- Whether a record is accepted before another: that of the earlier cycle, FATAL first in one cycle, then in order of arrival (R442,
R448). -/
def Rec.before (r x : Rec) : Bool :=
  let f := decide (r.cls = .fatal)
  let g := decide (x.cls = .fatal)
  decide (r.came < x.came) || (decide (r.came = x.came) && ((f && !g) || (f == g && decide (r.seq < x.seq))))

/-- The source whose oldest record came first of those that the lead takes: its key and that record (R442, R448). -/
def State.nextSource (s : State) : Option (Nat × Rec) :=
  s.ev.src.foldl
    (fun (o : Option (Nat × Rec)) p =>
      match p.2.queue.head? with
      | none => o
      | some r =>
        if !(s.takesFrom r.half) then o
        else match o with
          | none => some (p.1, r)
          | some (k, x) => if r.before x then some (p.1, r) else some (k, x))
    none

/-- RECORD_ACCEPT: the lead accepts the record of a source, where it is the one that came first; losses of its class at its source are then
reported (R442, R445). -/
def execRecordAccept (block inst : Byte) (s : State) : Host.Outcome State Fault Refusal :=
  match s.nextSource with
  | none => .next s
  | some (k, r) =>
    if k ≠ srcKey block.toNat inst.toNat then .next s
    else
      let rest := (s.src k).queue.tail
      let s1 := (s.modSrc k fun q => { q with queue := rest }).cross r.half 0 1 (32 * r.recs.length)
      let s2 := if r.cls = .trace ∧ s.ev.traceLen ≠ 0 then s1.traceTake r else s1.ringTake r
      .next (if r.gap then s2 else s2.reportGaps k fun l => l.mask.testBit r.cls.code)

/-- COALESCE_WINDOW_END: a window that folded records posts the latest with its REPEAT, which opens a new window; an empty one
ends (R444). -/
def execCoalesceWindowEnd (block inst : Byte) (code : BitVec 16) (s : State) : Host.Outcome State Fault Refusal :=
  let k := srcKey block.toNat inst.toNat
  match takeFirst (fun (w : Window) => w.code == code.toNat && decide (w.closes ≤ s.now)) (s.src k).windows with
  | none => .next s
  | some (w, r) =>
    let s1 := s.modSrc k fun q => { q with windows := r }
    .next (if w.count = 0 then s1 else s1.limitPost { w.latest with rep := min 65535 w.count })

/-- GAP_TIMER: 10 ms after a loss its GAP is posted (R445). -/
def execGapTimer (block inst : Byte) (s : State) : Host.Outcome State Fault Refusal :=
  .next (s.reportGaps (srcKey block.toNat inst.toNat) fun l => decide (l.firstAt + 10000000 ≤ s.now))

/-! ## Streams (R443) -/

/-- FATAL and SECURITY records go ahead of all others. -/
def EvItem.ahead : EvItem → Bool
  | .ring rsv _ _ _ _ => rsv
  | _ => false

/-- Records that an item takes in a frame. -/
def EvItem.size : EvItem → Nat
  | .ring _ _ _ _ n => n
  | .trace _ _ _ n => n
  | .gap _ _ _ => 1

/-- The items of the next frame, at most 43 records, and the others. -/
def pickItems : Nat → List EvItem → List EvItem × List EvItem
  | _, [] => ([], [])
  | room, i :: r => if i.size ≤ room then let p := pickItems (room - i.size) r; (i :: p.1, p.2) else ([], i :: r)

/-- A GAP of stage 2 for one session. -/
def State.streamGap (s : State) (n mask : Nat) (first : DWord) : State × List (List Byte) :=
  (s.bump 0x50050, [(s.mkRec 0 0x05 0 .notice 1 [] none).encode false (gapPay n mask 2 first)])

/-- The bytes of an item: a record overwritten, or one whose read meets an uncorrectable error, becomes a GAP (R441, R443). -/
def State.itemBytes (s : State) (i : EvItem) : State × List (List Byte) :=
  match i with
  | .gap n mask first => s.streamGap n mask first
  | .trace idx n t _ =>
    if mapFind s.ev.traceSeq idx ≠ some n then s.streamGap 1 32 t
    else
      let r := s.read (commonsBase + s.ev.traceOff + 32 * idx) 32 0 0x7F
      if r.2.2 then r.1.streamGap 1 32 t else (r.1, [r.2.1])
  | .ring rsv n t cls cnt =>
    let wr := if rsv then s.ev.wrRsv else s.ev.wrMain
    let size := if rsv then s.ev.rsvEntries else s.ev.mainEntries
    if size < (wr + 2 ^ 32 - n) % 2 ^ 32 then s.streamGap 1 (2 ^ cls) t
    else
      let r := (upto cnt).foldl
        (fun (p : State × List (List Byte) × Bool) j =>
          let q := p.1.read (s.ev.entryAt rsv (n + j)) 32 0 0x7F
          (q.1, p.2.1 ++ [q.2.1], p.2.2 || q.2.2))
        (s, [], false)
      if r.2.2 then r.1.streamGap 1 (2 ^ cls) t else (r.1, r.2.1)

/-- EVENT_STREAM_SEND: up to 43 records of a session leave in an EVENT frame (R357, R443). -/
def execEventStreamSend (slot : SlotId) (s : State) : Host.Outcome State Fault Refusal :=
  let x := s.sess slot
  if s.serves && decide (x.st = .open_) && !x.queue.isEmpty then
    let p := pickItems 43 ((x.queue.filter (·.ahead)) ++ (x.queue.filter fun i => !i.ahead))
    let r := p.1.foldl
      (fun (q : State × List (List Byte)) i => let b := q.1.itemBytes i; (b.1, q.2 ++ b.2))
      (s.modSess slot fun y => { y with queue := p.2 }, [])
    .next (r.1.tagged slot fun n => .event x.peer n r.2)
  else .next s

/-! ## Telemetry (R450) -/

/-- TELEMETRY_SAMPLE: every TELE_PERIOD ms a TRACE record of the sensors, whose values the manual does not give (log 4). -/
def execTelemetrySample (s : State) : Host.Outcome State Fault Refusal :=
  let p := field (s.raw 0x50030) 15 0
  if s.boot.fw && (s.half 0).up && !(s.half 0).inReset && p != 0 && decide (s.ev.teleAt + p * 1000000 ≤ s.now) then
    let w := (Config.freeWord s.freeCtr).toNat
    let hot := (upto 12).foldl (fun m j => max m (s.stack j).temp) 0
    let pl := leBytes 2 w ++ leBytes 2 (w / 2 ^ 16) ++ leBytes 1 (w / 2 ^ 32) ++ leBytes 1 (w / 2 ^ 40) ++ leBytes 1 hot ++ leBytes 1 (w / 2 ^ 48)
    .next (({ s with ev := { s.ev with teleAt := s.now } }.bumpFree 1).post 0 0x05 0 .trace 2 pl)
  else .next s

end Sys2Proof.Machine
end

