-- ==== Sys2Proof/Machine/Image.lean ====
section
/-! DEFINITION. LOAD_IMAGE: the checks in their order, and how the image is applied (R238, R379 to R383, R396 to R399). -/

namespace Sys2Proof.Machine

/-! ## The checks (R380) -/

/-- Step 1: the conditions of R379 in their order. -/
def State.imgPlace (s : State) (a n : Nat) : Option ImgErr :=
  let place := fun (ok : Bool) => if ok then none else some (⟨stRefused, 1, 0xFE, 0⟩ : ImgErr)
  let busy := fun (ok : Bool) => if ok then none else some (⟨stRefused, 12, 0xFE, 0⟩ : ImgErr)
  firstErr [
    place (a % 64 == 0), place (decide (200 ≤ n) && decide (n ≤ 2 ^ 30)),
    place (inOneRegion s.regions a n && !(s.touchesProg a n)),
    busy (s.cores.all fun p => decide (p.2.state ≠ 2)), busy (s.step.phase == .idle || s.step.phase == .failed),
    busy (s.rt.quiesced && s.drained)]

/-- An image that cannot be read: the access's own status; the manual gives it no CODE (log 4). -/
def State.imgReach (s : State) (a n : Nat) (ue : Bool) : Option ImgErr :=
  let st := (s.accRange 0 a n).status
  let w := (Config.freeWord s.freeCtr).toNat
  if st ≠ 0 then some ⟨st, w % 256, 0xFE, 0⟩ else if ue then some ⟨stMem, w % 256, 0xFE, 0⟩ else none

/-- Steps 2 to 4: trailer, signature, header. SIG covers the SHA-384 of bytes 0 to TOTAL_LEN - 97 (R376). -/
def State.imgHead (s : State) (b : List Byte) (n : Nat) (signed : Option (List Byte)) : Option ImgErr :=
  let t := n - 128
  let fw := (s.sec.slotOf s.sec.run).ver.toNat
  let serial := leAt b 0x10 8
  firstErr [
    chk (leAt b 8 4 == n) 2 0xFF 0, chk (leAt b t 4 == 0x544C4654) 2 0xFF 0,
    chk (slice b (t + 0x10) 16 == keyBytes (s.ctl.own.key.getD 0) 16) 3 0xFF 0,
    if signed = some (b.take (n - 96)) then none else some ⟨stAuth, 4, 0xFF, 0⟩,
    chk (leAt b 0 4 == 0x544C4649) 5 0 0, chk (leAt b 4 1 / 16 == 1 && decide (leAt b 4 1 % 16 ≤ 4)) cVERSION 0 4,
    chk (allZero (slice b 5 3)) cFIELD 0 5, chk (decide (leAt b 14 2 ≤ fw)) 14 0 14,
    chk (serial == 0 || serial == s.fuse.serial.toNat) 13 0 16, chk (allZero (slice b 0x20 32)) cFIELD 0 0x20]

/-- Step 5: the walk, and the required sections. The manual gives no OFFSET for a section that is absent (log 4). -/
def State.imgWalk (s : State) (b : List Byte) (n : Nat) : Option ImgErr × Img :=
  let cnt := leAt b 12 2
  let minor := leAt b 4 1 % 16
  let w := walkSecs b minor (n - 128) (if cnt ≤ 11 then cnt else 0) 64 0
  let has := fun t => w.2.1.any fun p => p.1 == t
  let free := (Config.freeWord s.freeCtr).toNat % 2 ^ 32
  (firstErr [
    chk (decide (1 ≤ cnt) && decide (cnt ≤ 11)) cLENGTH 0 12, w.1, chk (w.2.2 == n - 128) cLENGTH 0 12,
    chk (has 1) cMISSING 1 free, chk (has 2) cMISSING 2 free],
   ⟨b, minor, w.2.1⟩)

/-- The first check that an image fails, and the image (R380). `ue` says that reading it met an uncorrectable error. -/
def State.imgCheck (s : State) (a n : Nat) (b : List Byte) (ue : Bool) (signed : Option (List Byte)) : Option ImgErr × Img :=
  match s.imgPlace a n with
  | some e => (some e, {})
  | none => match s.imgReach a n ue with
    | some e => (some e, {})
    | none => match s.imgHead b n signed with
      | some e => (some e, {})
      | none =>
        let w := s.imgWalk b n
        match w.1 with
        | some e => (some e, w.2)
        | none => match w.2.checkBodies s.boot.strap s.boot.strapFault ((Config.freeWord s.freeCtr).toNat % 2 ^ 32) with
          | some e => (some e, w.2)
          | none => (w.2.checkPlaces a n, w.2)

/-! ## Applying an image (R382, R396) -/

/-- A register takes the value of a section, or its default where the section is absent (R396). -/
def State.setImg (s : State) (m : Img) (t a v : Nat) : State := s.setRaw a (if (m.body t).isSome then w32 v else resetOf a)

/-- The registers that the sections set (step 3). -/
def State.imgRegs (s : State) (m : Img) : State :=
  let f := m.fld
  let s1 := ((s.setRaw 0xB000C (w32 (f 2 1 1 * 2 ^ 28 + f 2 0 1 * 2 ^ 16))).setRaw 0xB0010 (w32 (f 2 2 2))).setRaw 0xB0014
    (w32 (f 2 4 4 / 4096))
  let s2 := ((s1.setImg m 7 0xA0004 (f 7 10 2 * 65536 + f 7 12 2)).setImg m 7 0xA0008 (f 7 0 4 / 4096)).setImg m 7 0xA000C (f 7 4 4 / 4096)
  let s3 := ((s2.setImg m 8 0x90030 (f 8 4 2 * 65536 + f 8 6 1 * 256 + f 8 7 1)).setImg m 8 0x90034
    (f 8 8 1 * 2 ^ 24 + f 8 9 1 * 2 ^ 20 + f 8 10 1 * 256 + f 8 11 1)).setImg m 8 0x90038 (f 8 12 2 * 65536 + f 8 14 2)
  let s4 := (s3.setImg m 10 0x50014 (f 10 10 1 * 2 ^ 31 + f 10 8 2 * 65536 + f 10 22 2)).setImg m 10 0xB0070 (f 10 20 2)
  let s5 := (upto 4).foldl
    (fun (q : State) c => q.setImg m 10 (0x50020 + 4 * c) (f 10 (26 + 4 * c) 2 * 65536 + f 10 (24 + 4 * c) 2)) s4
  let s6 := (upto 96).foldl
    (fun (q : State) c => q.setImg m 11 (aArr c 0x050) (f 11 0 1 * 2 ^ 31 + f 11 1 1 * 65536 + f 11 2 1 * 256 + f 11 3 1)) s5
  let s7 := (upto 12).foldl (fun (q : State) j => q.setImg m 11 (aStk j 0x014) (f 11 4 1 * 2 ^ 31 + f 11 5 1)) s6
  let s8 := s7.setImg m 11 0xCC010 (f 11 8 1 * 2 ^ 31 + f 11 6 2)
  (upto 6).foldl
    (fun (q : State) l => q.setImg m 11 (aLnk l 0x020) (b2n ((f 11 9 1).testBit l) * 256 + f 11 10 1)) s8

/-- What no register holds (steps 3 to 6). -/
def State.imgNew (s : State) (m : Img) (hash : BitVec 384) : ImgSt :=
  let v := !s.boot.strapFault
  { loaded := true, ver := leAt m.b 4 1, imgId := BitVec.ofNat 64 (leAt m.b 0x18 8), hash := hash, coordValid := v
    coord := if v then m.coord s.boot.strap else ⟨0, 0, 0⟩, shape := m.shape, wrap := m.wrap
    jobTag := BitVec.ofNat 32 (m.fld 1 0 4), kinds := m.fld 1 11 1, portUse := m.portUse, linkMin := m.linkMin
    aukorPort := if m.fld 1 14 2 = 0 then 40871 else m.fld 1 14 2, groups := (upto 16).map m.group
    recOff := some (m.fld 2 4 4), descOff := m.fld 5 0 4, descCount := m.descCount
    updPlace := (m.body 6).map fun _ => (m.fld 6 8 4, m.fld 6 12 4, m.fld 6 16 4)
    groupCount := m.fld 6 20 2, curveCount := m.fld 6 22 2, banks := m.banks, jobSeed := BitVec.ofNat 64 (m.fld 6 0 8)
    sched := (m.body 7).map fun _ => (m.fld 7 0 4, m.fld 7 4 4, m.fld 7 8 2) }

/-- The ring and the trace buffer take their places (R441, R442, R447). -/
def State.imgRing (s : State) (m : Img) : State :=
  if (m.body 10).isSome then s.ringAt (m.fld 10 0 4) (ceilLog2 (m.fld 10 4 4)) false (m.fld 10 12 4) (m.fld 10 16 4)
  else s.ringAt 0x3FFF8000 10 true 0 0

/-- Buckets by number, without the entries that equal the default. -/
def numbered {α : Type} [DecidableEq α] (d : α) (l : List α) : Map α :=
  (l.zipIdx.filter fun p => decide (p.1 ≠ d)).map fun p => (p.2, p.1)

/-- Tables, steps and selections (steps 4 to 7). -/
def State.imgBlocks (s : State) (m : Img) : State :=
  let tbl := numbered (0xF : BitVec 16) ((upto (m.fld 8 16 2)).map fun i => BitVec.ofNat 16 (m.fld 8 (24 + 2 * i) 2))
  let dl : Coord := ⟨m.fld 8 0 1, m.fld 8 1 1, m.fld 8 2 1⟩
  let x : ClkSel := { source := m.fld 9 0 1, link := m.fld 9 1 1, fallback := m.fld 9 2 1 == 1 }
  let s1 := { s with
    buckets := numbered {} m.buckets, bkt := []
    clk := { s.clk with held := none }
    col := { s.col with next := [0, 0, 0, 0], runs := [], rel := [], full := 0, drains := [], passing := 0 }
    rt := { s.rt with tbl := tbl, tblStaged := tbl, dl := dl, dlStaged := dl, staged := false, lim := [] }
    step := { s.step with
      phase := .idle, attempt := 0, micro := 0, bankSel := 0, silCnt := [], warned := 0, actEnd := none } }
  if (m.body 9).isSome && (x.source == 2 || s1.srcPresent x.source x.link) then s1.imageSel x else s1

/-- The links after a load: one that the image keeps OFF goes OFF, one that is up repeats its identity exchange (step 9). -/
def State.imgLink (s : State) (l : Nat) : State :=
  let st := (s.link l).st
  if st ≠ .off ∧ s.keptOff l = true then (s.lostLink l).modLink l fun k => { k with st := .off, pend := false, since := s.now }
  else if st = .active ∨ st = .quarantine then s.exchangeLink l
  else if st = .shifting then s.modLink l fun k => { k with reident := true }
  else s

/-- How long a load takes: at most 10 ms and 1 ns a byte, a free value within that (R382; log 4). -/
def State.loadSpan (s : State) (n : Nat) : Nat := (Config.freeWord s.freeCtr).toNat % (10000001 + n)

/-- A core's partition mode and program place (step 3). -/
def State.imgCores (s : State) (m : Img) : State :=
  (upto 96).foldl
    (fun (q : State) c =>
      q.modCore c fun k =>
        { k with
          progBase := (m.prog c).1, progSize := (m.prog c).2
          arr := { k.arr with mode := m.fld 2 (8 + c / 4) 1 / 4 ^ (c % 4) % 4 } })
    s

/-- Steps 1 to 7: memory, registers, blocks and selections. -/
def State.imgApply (s : State) (m : Img) : State := ((((s.fillAll m.fills).imgCores m).imgRegs m).imgRing m).imgBlocks m

/-- An image that has passed every check is to be applied on both halves, so the follower takes part (R16, R360). What the load
writes shows as it ends (R361; log 32). -/
def State.imgStart (s : State) (c : Cmd) (m : Img) (a n : Nat) : State :=
  let l : LoadSt :=
    { cmd := c, addr := a, len := n, since := s.now, until_ := s.now + s.loadSpan n, m := m
      img := s.imgNew m (Config.sha384 (m.bytes 0 (n - 96))), regions := m.regions }
  let s1 := s.bumpFree 1
  if s.farStatus ≠ 0 then s1.failFwd c (.load l) s.farStatus [] else s1.forward c (.load l)

/-- The load ends: the image is applied, the regions are replaced, LOADED is set and the response sent; the links repeat their
identity exchange, and another Aukor port closes every session (R382). -/
def State.loadDone (s : State) (l : LoadSt) : State :=
  let s1 := ({ s.imgApply l.m with regions := l.regions, img := l.img }.modCtl fun k => { k with load := none }).imgEnd 1 ((l.until_ - l.since) / 1000)
    ⟨0, 0, 0, 0⟩
  let s2 := (upto 6).foldl State.imgLink ((s1.logAdd 4 none l.img.hash).respond l.cmd stAccepted)
  if l.img.aukorPort = s.img.aukorPort then s2 else (upto 16).foldl (fun q i => q.closeSess i 3) s2

/-- The end of a load: without the bridge the follower cannot carry out its part, and the load is cut off (R24, R383;
log 58). -/
def State.loadEnd (s : State) (l : LoadSt) : State := if s.bridge.dataUp then s.loadDone l else s.cutLoad stBridge

/-- What happens as TIME passes: one cycle, the receive buffers empty, a power stage that has waited its time starts, and a
load that is at its end ends (R344, R382, R409, R417; log 3). -/
def State.idle (s : State) : State :=
  let t := s.tick.drainHost.powerOn
  match t.ctl.load with
  | none => t
  | some l => if l.until_ ≤ t.now then t.loadEnd l else t

/-- LOAD_IMAGE: `signed` is the message over whose SHA-384 SIG verifies under the key of the certificate that the session presented
(R377; log 7). Every step is checked before anything changes (R379 to R382). -/
def execLoadImage (hd : Head) (addr : DWord) (len : Word) (signed : Option (List Byte)) (s : State) : Host.Outcome State Fault Refusal :=
  let a := addr.toNat
  let n := len.toNat
  .next (s.critical hd opLoadImage (beBytes 8 a ++ beBytes 4 n) fun c q =>
    let r := if q.imgPlace a n = none then q.read a n 0 0x7F else (q, [], false)
    let k := q.imgCheck a n r.2.1 r.2.2 signed
    match k.1 with
    | none => r.1.imgStart c k.2 a n
    | some e =>
      let last := if e.status = stImage then 3 else if e.status = stAuth then 4 else 2
      let s1 := (r.1.imgEnd last (r.1.loadSpan n / 1000) e).bumpFree 1
      let s2 := if last = 4 then s1.post 0 0x02 0 .security 0x0A (slice r.2.1 (n - 112) 8) else s1
      s2.respond c e.status (if last = 3 then beBytes 1 e.sec ++ zeros 3 ++ beBytes 4 e.off else []))

end Sys2Proof.Machine
end

