-- ==== Sys2Proof/Machine/Fw.lean ====
section
/-! DEFINITION. Firmware updates (R454, R458 to R460), debug mode (R464 to R468). -/

namespace Sys2Proof.Machine

/-! ## FW_UPDATE (R460) -/

/-- A FW_UPDATE of a step. -/
def fwStep (n : Nat) (l : List Byte) : Bool := beAt l 0 1 == n

/-- What an update in progress has written is discarded; a slot written in part is invalid. -/
def SecSt.discard (x : SecSt) : SecSt := if x.fwu.st ≠ 0 ∧ x.fwu.kind ≠ 2 ∧ x.fwu.data ≠ [] then x.spoil x.target else x

/-- FW_UPDATE BEGIN: OFFSET is TOTAL_LEN. -/
def execFwUpdateBegin (hd : Head) (total : Word) (s : State) : Host.Outcome State Fault Refusal :=
  .next (s.criticalIf hd opFwUpdate (fun l => fwStep 0 l && beAt l 4 4 == total.toNat) fun c q =>
    (q.modSec fun x =>
      { x.discard with fwu := { st := 1, last := x.fwu.last, total := total.toNat, sess := some (c.slot, c.sid) } }).respond c stAccepted)

/-- KIND of the package, once its byte is received. -/
def pkgKind (l : List Byte) : Nat := let k := leAt l 4 1; if k = 1 ∨ k = 2 then k else 0

/-- FW_UPDATE DATA: bytes at SEC_FWU_NEXT. A session of protocol 2.0 or 2.1 cannot go on with another session's update (R356);
bytes beyond TOTAL_LEN are refused. -/
def execFwUpdateData (hd : Head) (off : Word) (data : List Byte) (s : State) : Host.Outcome State Fault Refusal :=
  .next (s.critical hd opFwUpdate (argsFw 1 off.toNat data) fun c q =>
    let u := q.sec.fwu
    let n := u.data.length
    if u.st ≠ 1 then q.respond c stRefused
    else if u.sess ≠ some (c.slot, c.sid) ∧ (q.sess c.slot).ver.toNat < 0x22 then q.respond c stNotSupported
    else if off.toNat ≠ n ∨ u.total < n + data.length then q.respond c stRefused
    else
      let all := u.data ++ data
      (q.modSec fun x => { x with fwu := { u with data := all, kind := pkgKind all } }).respond c stAccepted)

/-- Offset and length of component `i` of a package. -/
def pkgPart (l : List Byte) (i : Nat) : Nat × Nat := (leAt l (0x10 + 8 * i) 4, leAt l (0x14 + 8 * i) 4)

/-- A component of an anchor set holds whole public keys. -/
def keyCount (n hi : Nat) : Bool := n % 97 == 0 && decide (97 ≤ n) && decide (n ≤ 97 * hi)

/-- The layout of a package (R459). -/
def pkgOk (l : List Byte) : Bool :=
  let n := l.length
  let k := leAt l 4 1
  let p := pkgPart l 0
  let q := pkgPart l 1
  let fits := fun (x : Nat × Nat) => decide (0x100 ≤ x.1) && decide (x.1 + x.2 + 96 ≤ n)
  leAt l 0 4 == 0x544C4657 && (k == 1 || k == 2) && allZero (slice l 5 3) && leAt l 8 4 == n && decide (512 ≤ n)
    && decide (n ≤ 0x2000000) && fits p && fits q && allZero (slice l 0x90 112)
    && (if k = 1 then decide (leAt l 14 1 ≤ 64) && decide (leAt l 15 1 ≤ 64)
        else leAt l 14 2 == 0 && keyCount p.2 4 && keyCount q.2 2)

/-- What SIG of a package covers (R459). -/
def pkgCovered (l : List Byte) : List Byte := l.take (l.length - 96)

/-- DIGEST_0 and DIGEST_1 are the digests of the components (R459). -/
def digestsOk (l : List Byte) : Bool :=
  let ok := fun (i : Nat) => slice l (0x20 + 48 * i) 48 == digBytes (Config.sha384 (slice l (pkgPart l i).1 (pkgPart l i).2))
  ok 0 && ok 1

/-- A package that passed its signature and digests is committed, or refused for rollback (R454, R458, R460). -/
def State.fwCommit (s : State) (c : Cmd) (l : List Byte) : State :=
  let x := s.sec
  let m := leAt l 14 1
  let k := leAt l 15 1
  let ver := leAt l 12 2
  let refuse := fun (comp a b : Nat) =>
    ((s.fwuEnd 4).post 0 0x02 0 .security 3 (leBytes 1 comp ++ leBytes 1 a ++ leBytes 1 b)).respond c stRefused
  if leAt l 4 1 = 1 then
    if m < x.fuseM then refuse 0 m x.fuseM
    else if k < x.fuseC then refuse 1 k x.fuseC
    else
      let t := x.target
      let slot : SlotSt := ⟨BitVec.ofNat 16 ver, m, k, true, BitVec.ofNat 384 (beNat (slice l 0x50 48))⟩
      let s1 := s.modSec fun y =>
        { y with slot0 := if t = 0 then slot else y.slot0, slot1 := if t = 1 then slot else y.slot1, next := t, fwu := { last := 1 } }
      (s1.post 0 0x02 0 .notice 4 (leBytes 1 t ++ leBytes 2 ver ++ leBytes 1 m ++ leBytes 1 k)).respond c stAccepted
  else if ver ≤ x.setVer then (s.fwuEnd 4).respond c stRefused
  else
    let p := pkgPart l 0
    let q := pkgPart l 1
    let s1 := s.modSec fun y =>
      { y with
        setVer := ver, trust := p.2 / 97, recovery := q.2 / 97
        anchorDig := Config.sha384 (slice l p.1 p.2 ++ slice l q.1 q.2), fwu := { last := 1 } }
    (s1.post 0 0x02 0 .security 0x0B (leBytes 1 (p.2 / 97) ++ leBytes 1 (q.2 / 97) ++ leBytes 2 ver)).respond c stAccepted

/-- FW_UPDATE COMMIT: layout, SIG, digests, then versions. The operands are the messages over whose SHA-384 SIG verifies under the firmware
key, which signs firmware, and under a current recovery anchor, which signs anchor sets (R459; log 7). -/
def execFwUpdateCommit (hd : Head) (byFirmware byAnchor : Option (List Byte)) (s : State) : Host.Outcome State Fault Refusal :=
  .next (s.criticalIf hd opFwUpdate (fwStep 2) fun c q =>
    let u := q.sec.fwu
    if u.st ≠ 1 ∨ u.data.length < u.total then q.respond c stRefused
    else if !(pkgOk u.data) then (q.fwuEnd 5).respond c stRefused
    else if (if leAt u.data 4 1 = 1 then byFirmware else byAnchor) ≠ some (pkgCovered u.data) then (q.fwuEnd 3).respond c stAuth
    else if !(digestsOk u.data) then (q.fwuEnd 5).respond c stRefused
    else q.fwCommit c u.data)

/-- FW_UPDATE ABORT. -/
def execFwUpdateAbort (hd : Head) (s : State) : Host.Outcome State Fault Refusal :=
  .next (s.criticalIf hd opFwUpdate (fwStep 3) fun c q => (if q.sec.fwu.st = 0 then q else q.fwuEnd 2).respond c stAccepted)

/-! ## Debug mode (R464 to R468) -/

/-- Whether a token of 152 B names this module, epoch, challenge and owner key, in its layout (R465, R467). -/
def State.tokenOk (s : State) (l : List Byte) : Bool :=
  let d := leAt l 0x14 4
  leAt l 0 4 == 0x544C4454 && leAt l 4 1 == 0x10 && allZero (slice l 5 3) && leAt l 8 8 == s.fuse.serial.toNat
    && leAt l 0x10 4 == s.ctl.own.epoch.toNat && decide (1 ≤ d) && decide (d ≤ 86400)
    && slice l 0x18 16 == beBytes 16 s.sec.chal.toNat && some (BitVec.ofNat 128 (beNat (slice l 0x28 16))) == s.ctl.own.key

/-- DEBUG_ENABLE with ON = 1: `signed` is the message over whose SHA-384 the token's signature verifies under the owner key (R465; log 7).
Either way a new challenge is drawn. The manual gives the failed check of the event no code (log 4). -/
def execDebugEnable (hd : Head) (token : List Byte) (signed : Option (List Byte)) (s : State) : Host.Outcome State Fault Refusal :=
  .next (s.critical hd opDebug (argsDebug 1 token) fun c q =>
    if q.tokenOk token && signed == some (token.take 0x38) then
      let d := leAt token 0x14 4
      let s1 := ({ q with debugOn := true }.modSec fun x =>
        { x with dbgSince := true, dbgUntil := q.now + d * sec1, dbgKey := BitVec.ofNat 128 (beNat (slice token 0x28 16)) })
      let s2 := (s1.logAdd 5 none (Config.sha384 token)).post 0 0x02 0 .security 6 (leBytes 4 d ++ slice token 0x28 4)
      s2.newChallenge.respond c stAccepted
    else
      let w := (Config.freeWord q.freeCtr).toNat % 256
      let s1 := ((q.bumpFree 1).bump 0xE0030).post 0 0x02 0 .security 8 (leBytes 1 w)
      s1.newChallenge.respond c stAuth)

/-- DEBUG_ENABLE with ON = 0. -/
def execDebugDisable (hd : Head) (s : State) : Host.Outcome State Fault Refusal :=
  .next (s.criticalIf hd opDebug (fun l => beAt l 0 1 == 0) fun c q => (q.debugEnd 0).respond c stAccepted)

/-- DEBUG_EXPIRE: the end of DURATION. -/
def execDebugExpire (s : State) : Host.Outcome State Fault Refusal :=
  .next (if s.debugOn && decide (s.sec.dbgUntil ≤ s.now) then s.debugEnd 1 else s)

end Sys2Proof.Machine
end

