-- ==== Sys2Proof/Machine/I3c.lean ====
section
/-! DEFINITION. The I3C target (R451, R456). -/

namespace Sys2Proof.Machine

def State.modI3c (s : State) (f : I3cSt → I3cSt) : State := { s with i3c := f s.i3c }

/-- The target answers: power control while Off, else the management controller of half 0 or the boot ROM (R16, R451, R456). -/
def State.i3cOn (s : State) : Bool := s.pstate == .off || (s.boot.released && !(s.half 0).inReset)

/-- ENTDAA: a target without a dynamic address takes one. -/
def execEntdaa (a : DynAddr) (s : State) : Host.Outcome State Fault Refusal :=
  .next (if s.i3cOn && s.i3c.dyn.isNone then s.modI3c fun k => { k with dyn := some a } else s)

/-- SETDASA: the static address 0x2A is given a dynamic one. -/
def execSetdasa (a : DynAddr) (s : State) : Host.Outcome State Fault Refusal :=
  .next (if s.i3cOn && s.i3c.dyn.isNone then s.modI3c fun k => { k with dyn := some a } else s)

/-- RSTDAA: the dynamic address is dropped. -/
def execRstdaa (s : State) : Host.Outcome State Fault Refusal :=
  .next (if s.i3cOn then s.modI3c fun k => { k with dyn := none } else s)

/-- An answer of `n` bytes whose value the manual does not give (log 4). -/
def State.i3cFree (s : State) (n : Nat) : State :=
  if s.i3cOn then (s.emit (.i3c ((upto n).map fun i => Config.freeByte (s.freeCtr + i)))).bumpFree n else s

/-- GETPID: the provisional identifier, 6 B. -/
def execGetpid (s : State) : Host.Outcome State Fault Refusal := .next (s.i3cFree 6)

/-- GETBCR: the bus characteristics, 1 B. -/
def execGetbcr (s : State) : Host.Outcome State Fault Refusal := .next (s.i3cFree 1)

/-- GETDCR: the device characteristics, 1 B. -/
def execGetdcr (s : State) : Host.Outcome State Fault Refusal := .next (s.i3cFree 1)

/-- GETSTATUS: 2 B, bit [5] after a read of an address not served, which the answer clears; the other bits are not stated
(log 4). -/
def execGetstatus (s : State) : Host.Outcome State Fault Refusal :=
  if s.i3cOn then
    let lo := BitVec.ofNat 8 (setField (Config.freeByte (s.freeCtr + 1)) 5 5 (b2n s.i3c.err)).toNat
    .next (((s.emit (.i3c [Config.freeByte s.freeCtr, lo])).bumpFree 2).modI3c fun k => { k with err := false })
  else .next s

/-- GETMWL: the maximum write length, 2 B. -/
def execGetmwl (s : State) : Host.Outcome State Fault Refusal := .next (s.i3cFree 2)

/-- I3C_PRIVATE_WRITE: 4 B select the register that a read returns; other lengths are refused as writes (R451, R4). -/
def execI3cPrivateWrite (data : List Byte) (s : State) : Host.Outcome State Fault Refusal :=
  .next (if s.i3cOn && data.length == 4 then s.modI3c fun k => { k with sel := some (w32 (leNat data)) } else s)

/-- I3C_PRIVATE_READ: the selected register, its RC fields cleared; 0 and GETSTATUS bit [5] where it is not served. A read with
nothing selected returns a value that the manual does not state (log 4). -/
def execI3cPrivateRead (s : State) : Host.Outcome State Fault Refusal :=
  if s.i3cOn then
    match s.i3c.sel with
    | none => .next (s.i3cFree 4)
    | some w =>
      let a := w.toNat
      let r := s.readReg false true .ok a
      if s.i3cServed a && decide (r.2.1 = 0) then .next (r.1.emit (.i3c (leBytes 4 r.2.2.toNat)))
      else .next ((s.emit (.i3c [0, 0, 0, 0])).modI3c fun k => { k with err := true })
  else .next s

end Sys2Proof.Machine
end

