-- ==== Sys2Proof/Machine/Mem.lean ====
section
/-! DEFINITION. Memory maintenance (R182 to R184) and the bridge (R19, R186, R431). -/

namespace Sys2Proof.Machine

/-! ## Scrub and corrected errors -/

/-- Bytes of a stack: 48 GiB (R168). -/
def stackBytes : Nat := 48 * 2 ^ 30

/-- Whether `k` is the key of a protected unit: a word of a slice or a commons, 64 B of a stack (R181). -/
def isUnit (k : Nat) : Bool :=
  if k < 2 ^ 44 then k % 8 == 0 && (decide (k < 0x000180000000) || (decide (commonsBase ≤ k) && decide (k < 0x000280000000)))
  else
    let b := (k - 2 ^ 44) % 2 ^ 36
    k % 64 == 0 && decide ((k - 2 ^ 44) / 2 ^ 36 < 12) && decide (b < stackBytes)

/-- The last unit of a patrol pass. -/
def lastUnit (k : Nat) : Bool :=
  if k < 2 ^ 44 then k == 0x000280000000 - 8 else (k - 2 ^ 44) % 2 ^ 36 == stackBytes - 64

/-- Number of the counting window of a key: its stack, 12 for SRAM (R182). -/
def winOf (k : Nat) : Nat := (stackOfKey k).getD 12

/-- The scrub settings of a window: on, and the period in TIME cycles (R187, R188). -/
def State.scrubCfg (s : State) (w : Nat) : Bool × Nat :=
  if w = 12 then let r := s.raw 0xCC010; (bit r 31, field r 15 0 * 1000000000)
  else let r := s.raw (aStk w 0x014); (bit r 31, field r 7 0 * 3600000000000)

/-- End the counting window `w` (R182). -/
def State.endWindow (s : State) (w : Nat) : State :=
  { s with ceSeen := s.ceSeen.filter fun p => winOf p.1 ≠ w, ceWin := mapSet 0 s.ceWin w s.now }

/-- An upset strikes the unit at `k`: a correctable one leaves the data, an uncorrectable one leaves bytes the manual does
not state (log 4). -/
def State.upset (s : State) (k : Nat) (e : EccKind) : State :=
  match e with
  | .correctable => if s.ecc.any (fun x => x.key == k) then s else { s with ecc := s.ecc ++ [(⟨k, e⟩ : EccLoc)] }
  | .uncorrectable =>
    let n := if k < 2 ^ 44 then 8 else 64
    let s1 := { s with ecc := (s.ecc.filter fun (x : EccLoc) => x.key ≠ k) ++ [(⟨k, e⟩ : EccLoc)] }
    ({ s1 with mem := writeKeys s1.mem k ((upto n).map fun i => Config.freeByte (s.freeCtr + i)) }).bumpFree n

/-- PATROL_SCRUB: the scrub reads one location, corrects it and writes it back; `upset` is an error that struck it first.
The last location ends the pass and the counting window (R182, R183, R185). SRAM has no access in Rest (R419, log 51). -/
def execPatrolScrub (loc : Nat) (upset : Option EccKind) (s : State) : Host.Outcome State Fault Refusal :=
  let w := winOf loc
  let on := (s.scrubCfg w).1 && isUnit loc && s.boot.released
    && (if w = 12 then decide (s.pstate ≠ .rest) else decide ((s.stack w).f.st = .on))
  if on then
    let s1 := match upset with | none => s | some e => s.upset loc e
    let s2 := (s1.scanUnits [loc] 3 0x7F).1
    if lastUnit loc then
      let s3 := s2.endWindow w
      .next (if w = 12 then s3 else s3.wrapBy (aStk w 0x018) 1)
    else .next s2
  else .next s

/-- CE_WINDOW_END: with the scrub off, a counting window ends every PERIOD (R182). -/
def execCeWindowEnd (j : Option StackId) (s : State) : Host.Outcome State Fault Refusal :=
  let w := match j with | none => 12 | some i => i.val
  let c := s.scrubCfg w
  if !c.1 && decide (mapGet 0 s.ceWin w + c.2 ≤ s.now) then .next (s.endWindow w) else .next s

/-- STACK_TEMP_CHANGE: double refresh above 85 °C; a WARNING as 95 °C is reached (R184). -/
def execStackTempChange (j : StackId) (temp : Byte) (s : State) : Host.Outcome State Fault Refusal :=
  let t := temp.toNat
  let old := (s.stack j).temp
  if s.boot.released then
    let s1 := s.modStack j fun x => { x with temp := t, refresh2x := decide (85 < t) }
    .next (if old < 95 ∧ 95 ≤ t then s1.post (j / 6) 0x0C j .warning 4 (leBytes 1 t) else s1)
  else .next s

/-! ## Bridge (R186) -/

/-- The data lanes go down for a cause. -/
def State.bridgeDown (s : State) (cause : BitVec 2) : State :=
  let b := { s.bridge with dataUp := false, down := s.bridge.down ||| cause, downAt := s.now }
  { s with bridge := b }.post 0 0x0D 0 .fatal 1 (leBytes 1 b.down.toNat)

/-- BRIDGE_REPLAY: a flit fails its CRC and is replayed; the 16th failed replay in a row takes the data lanes down. Coming in the
same cycle as a loss of training it adds its cause. -/
def execBridgeReplay (s : State) : Host.Outcome State Fault Refusal :=
  let s1 := s.bump 0xD0004
  let n := s.bridge.replays + 1
  if s.bridge.dataUp then
    .next (if n < 16 then { s1 with bridge := { s1.bridge with replays := n } } else s1.bridgeDown 1)
  else if s.bridge.down ≠ 0 ∧ s.bridge.downAt = s.now ∧ n = 16 then
    .next { s1 with bridge := { s1.bridge with replays := n, down := s.bridge.down ||| 1 } }
  else .next s

/-- BRIDGE_TRAIN_LOSS: the data lanes lose training. Coming in the same cycle as the last failed replay it adds its cause. -/
def execBridgeTrainLoss (s : State) : Host.Outcome State Fault Refusal :=
  if s.bridge.dataUp then .next (s.bridgeDown 2)
  else if s.bridge.down ≠ 0 ∧ s.bridge.downAt = s.now then
    .next { s with bridge := { s.bridge with down := s.bridge.down ||| 2 } }
  else .next s

/-- BRIDGE_TRAINED: the data lanes have trained during start-up; after a warm reset the stacks leave self-refresh (R431). -/
def execBridgeTrained (s : State) : Host.Outcome State Fault Refusal :=
  if s.boot.released && s.bridge.training then
    let s1 := { s with bridge := { s.bridge with dataUp := true, training := false, down := 0, replays := 0 } }
    .next (if s.boot.warm then (upto 12).foldl (fun q j => q.modStack j fun x => { x with selfRefresh := false }) s1 else s1)
  else .next s

/-- SIDEBAND_TRAINED: the sideband lanes have trained after release (R19). -/
def execSidebandTrained (s : State) : Host.Outcome State Fault Refusal :=
  if s.boot.released then .next { s with bridge := { s.bridge with sideUp := true } } else .next s

end Sys2Proof.Machine
end

