-- ==== Sys2Proof/Machine/Own.lean ====
section
/-! DEFINITION. Heartbeat and HELD (R18 to R20, R369), the owner record and its commands (R364 to R367). -/

namespace Sys2Proof.Machine

/-! ## Heartbeat (R18, R19) -/

/-- HEARTBEAT_SEND: every 10 µs the lead sends a heartbeat with the owner epoch. -/
def execHeartbeatSend (s : State) : Host.Outcome State Fault Refusal :=
  let due := match s.side.sentAt with | none => true | some t => decide (t + 10000 ≤ s.now)
  let h := s.half 0
  if h.lead && h.up && !h.inReset && decide (s.boot.leadState = 0) && due then
    let hb := if s.bridge.sideUp then s.side.hb ++ [s.ctl.own.epoch] else s.side.hb
    .next { s with side := { s.side with hb := hb, sentAt := some s.now } }
  else .next s

/-- A heartbeat or echo reaches half `h`: HB_LOST clears and the 100 µs rule is armed. -/
def State.heard (s : State) (h : Nat) : State :=
  (s.modHalf h fun k => { k with armed := true, hbLost := false, lastHb := s.now }).wrapBy (aHlf h 0x004) 1

/-- HEARTBEAT_RX: the follower echoes the heartbeat; an epoch that differs from its mirror puts both halves in HELD. -/
def execHeartbeatRx (s : State) : Host.Outcome State Fault Refusal :=
  match s.side.hb with
  | [] => .next s
  | e :: r =>
    if s.bridge.sideUp && (s.half 1).up && !(s.half 1).inReset then
      let s1 := { s with side := { s.side with hb := r, echo := s.side.echo + 1 } }.heard 1
      .next (if e = s.ctl.mirror.epoch then s1 else (s1.enterHeld 1 2).enterHeld 0 2)
    else .next s

/-- ECHO_RX: the lead receives an echo. -/
def execEchoRx (s : State) : Host.Outcome State Fault Refusal :=
  if decide (0 < s.side.echo) && s.bridge.sideUp && (s.half 0).up && !(s.half 0).inReset then
    .next ({ s with side := { s.side with echo := s.side.echo - 1 } }.heard 0)
  else .next s

/-- HB_LOST goes to 1 and the half enters HELD (R18, R26). -/
def State.loseHb (s : State) (h : Nat) : State :=
  ((s.modHalf h fun k => { k with hbLost := true }).bumpBy (aHlf h 0x008) 16 1).enterHeld h 1

/-- HB_TIMEOUT: no heartbeat or echo for 100 µs. -/
def execHbTimeout (h : HalfId) (s : State) : Host.Outcome State Fault Refusal :=
  let k := s.half h
  if k.up && !k.inReset && k.armed && !k.hbLost && decide (k.lastHb + 100000 ≤ s.now) then .next (s.loseHb h) else .next s

/-- HB_FIRST_TIMEOUT: no first heartbeat or echo within 250 ms of release, also of a half that is still in its boot ROM. -/
def execHbFirstTimeout (h : HalfId) (s : State) : Host.Outcome State Fault Refusal :=
  let k := s.half h
  if s.boot.released && !k.inReset && !k.armed && !k.hbLost && decide (k.since + 250000000 ≤ s.now) then
    .next (s.loseHb h)
  else .next s

/-! ## The mirror (R364, R369) -/

/-- Whether a change may end HELD. -/
def MirrorPend.claims (p : MirrorPend) : Bool :=
  match p.cmd with
  | none => false
  | some c => c.op == opClaim || c.op == opRecover

/-- The new record takes effect on both halves; a claim or recovery ends HELD. -/
def State.applyRecord (s : State) (p : MirrorPend) : State :=
  let old := s.ctl.own
  let s0 := s.modCtl fun k => { k with own := p.new_, mirror := p.new_, pend := none, lapsed := k.lapsed || p.lapse }
  let changed := (s.isHeld && p.claims) || old.owned != p.new_.owned || old.key != p.new_.key || old.epoch != p.new_.epoch
  let s1 := if changed then s0.debugEnd 2 else s0
  let s2 := if s.isHeld && p.claims then s1.leaveHeld else s1
  let s3 := if p.counter = 0 then s2 else s2.bump p.counter
  let s4 := if p.lapse then s3.post 0 0x01 0 .warning 2 (keyBytes (old.key.getD 0) 8) else s3
  match p.cmd with
  | none => s4
  | some c =>
    let s5 := if c.op = opRecover then s4.post 0 0x01 0 .security 3 (keyBytes (p.new_.key.getD 0) 8) else s4
    s5.respond c stAccepted p.data

/-- MIRROR_ACK: the follower acknowledges the new mirror and the change takes effect; in HELD only a claim, a recovery or the end
of the owner's session does. A HANDOVER whose target session has closed is refused (R364, R369, R370). -/
def execMirrorAck (s : State) : Host.Outcome State Fault Refusal :=
  match s.ctl.pend with
  | none => .next s
  | some p =>
    if !s.mirrorOk || (s.isHeld && !p.claims && (p.cmd.isSome || p.lapse)) then .next s
    else
      match p.target, p.cmd with
      | some (i, id), some c =>
        if (s.sess i).st = .open_ ∧ (s.sess i).id = id then .next (s.applyRecord p)
        else .next ((s.modCtl fun k => { k with pend := none }).unbindOwner.respond c stRefused)
      | _, _ => .next (s.applyRecord p)

/-- MIRROR_TIMEOUT: no acknowledgement within 100 µs: the record stays, and the lead enters HELD (R369). -/
def execMirrorTimeout (s : State) : Host.Outcome State Fault Refusal :=
  match s.ctl.pend with
  | none => .next s
  | some p =>
    if p.at_ + 100000 ≤ s.now then
      let s1 := s.modCtl fun k => { k with pend := none }
      let s2 := if s.isHeld then s1 else s1.enterHeld 0 4
      match p.cmd with
      | none => .next s2
      | some c => .next (s2.countRefused.respond c stHeld)
    else .next s

/-- LEASE_EXPIRE: the deadline passes and the module becomes UNOWNED; a RENEW of the owner that has arrived counts
(R365, R366). -/
def execLeaseExpire (s : State) : Host.Outcome State Fault Refusal :=
  let o := s.ctl.own
  let renewed := s.ctl.cmdq.any fun c => c.op == opRenew && o.sess == some c.slot
  if s.leadRuns && o.owned && !s.isHeld && s.ctl.pend.isNone && !renewed && decide (o.deadline ≤ s.now) then
    .next (s.sendMirror
      { new_ := { o.unbound with owned := false, key := none, deadline := 0, leaseS := 0 }, at_ := s.now, lapse := true
        counter := 0x10038 })
  else .next s

/-! ## Commands (R365 to R367) -/

def noEpoch : Word := 0xFFFFFFFF

/-- The record of a new epoch for the session of a command. -/
def State.newOwner (s : State) (slot : Nat) (leaseS : Nat) : OwnRec :=
  { owned := true, epoch := s.ctl.own.epoch + 1, key := some (s.sess slot).key, sess := some slot, sid := (s.sess slot).id
    deadline := s.now + s.leaseS leaseS * sec1, leaseS := leaseS }

/-- CLAIM (R365, R369). -/
def execClaim (hd : Head) (leaseS : BitVec 16) (s : State) : Host.Outcome State Fault Refusal :=
  .next (s.critical hd opClaim (beBytes 2 leaseS.toNat ++ zeros 2) fun c s1 =>
    let o := s1.ctl.own
    let mine := o.key = none ∨ o.key = some (s1.sess c.slot).key
    if s1.isHeld = true ∧ ¬ mine then s1.countRefused.respond c stHeld
    else if o.owned = true ∧ ¬ mine then s1.respond c stOwned
    else if o.epoch = noEpoch then s1.respond c stRefused
    else
      s1.sendMirror
        { new_ := s1.newOwner c.slot leaseS.toNat, at_ := s1.now, cmd := some c, counter := 0x10030
          data := beBytes 4 (s1.leaseS leaseS.toNat * 1000) })

/-- RENEW (R365, R366). -/
def execRenew (hd : Head) (s : State) : Host.Outcome State Fault Refusal :=
  .next (s.critical hd opRenew [] fun c s1 =>
    let o := s1.ctl.own
    let n := s1.leaseS o.leaseS
    s1.sendMirror { new_ := { o with deadline := s1.now + n * sec1 }, at_ := s1.now, cmd := some c, data := beBytes 4 (n * 1000) })

/-- HANDOVER (R365). -/
def execHandover (hd : Head) (session : DWord) (s : State) : Host.Outcome State Fault Refusal :=
  .next (s.critical hd opHandover (beBytes 8 session.toNat) fun c s1 =>
    match s1.slotOf session with
    | none => s1.respond c stRefused
    | some i =>
      if s1.ctl.own.epoch = noEpoch then s1.respond c stRefused
      else s1.sendMirror
        { new_ := s1.newOwner i s1.ctl.own.leaseS, at_ := s1.now, cmd := some c, counter := 0x10034, target := some (i, session) })

/-- RELEASE (R365). -/
def execRelease (hd : Head) (s : State) : Host.Outcome State Fault Refusal :=
  .next (s.critical hd opRelease [] fun c s1 =>
    s1.sendMirror
      { new_ := { s1.ctl.own.unbound with owned := false, key := none, deadline := 0, leaseS := 0 }, at_ := s1.now, cmd := some c })

/-- What the signature of a RECOVER covers: serial, current EPOCH, SESSION of the frame, a fixed text (R367). -/
def State.recoverCovered (s : State) (c : Cmd) : List Byte :=
  beBytes 8 s.fuse.serial.toNat ++ beBytes 4 s.ctl.own.epoch.toNat ++ beBytes 8 c.sid.toNat ++ ascii "aukor-recover"

/-- RECOVER: `signed` is the message over whose SHA-384 SIG verifies under a certificate that chains to the recovery anchor,
none where there is none (R365, R367; log 7). -/
def execRecover (hd : Head) (sig : BitVec 768) (cert : List Byte) (signed : Option (List Byte)) (s : State) :
    Host.Outcome State Fault Refusal :=
  .next (s.critical hd opRecover (argsRecover sig cert) fun c s1 =>
    if signed ≠ some (s1.recoverCovered c) then (s1.post 0 0x01 0 .security 4 (leBytes 8 c.sid.toNat)).respond c stAuth
    else if s1.ctl.own.epoch = noEpoch then s1.respond c stRefused
    else s1.sendMirror { new_ := s1.newOwner c.slot 0, at_ := s1.now, cmd := some c, counter := 0x1003C })

end Sys2Proof.Machine
end

