-- ==== Sys2Proof/Machine/Reads.lean ====
section
/-! DEFINITION. The commands that any session may send (R359, R361, R443, R462) and the owner's commands for queue pairs and
memory regions (R347 to R349). -/

namespace Sys2Proof.Machine

/-! ## Reads -/

/-- Registers read one after another, up to the first that fails. DESIGN CHOICE, the manual gives no rule for a later one that
fails: the answer is its status without data, and what the reads before it cleared stays cleared (R9; log 62). -/
def State.readRegs (s : State) (owner : Bool) : List Nat → List Byte → State × Nat × List Byte
  | [], acc => (s, stAccepted, acc)
  | a :: r, acc =>
    let q := s.readReg owner owner .ok a
    if q.2.1 = 0 then State.readRegs q.1 owner r (acc ++ beBytes 4 q.2.2.toNat) else (q.1, q.2.1, [])

/-- READ_REG: COUNT registers from ADDR; only the owner clears RC fields (R9). -/
def execReadReg (hd : Head) (addr : Word) (count : BitVec 16) (s : State) : Host.Outcome State Fault Refusal :=
  .next (s.reading hd opReadReg (beBytes 4 addr.toNat ++ beBytes 2 count.toNat ++ zeros 2) fun c q =>
    q.readRegs (q.isOwner c.slot) ((upto count.toNat).map fun i => addr.toNat + 4 * i) [])

/-- READ_MEM (R165, R172, R185). -/
def execReadMem (hd : Head) (addr : DWord) (len : BitVec 16) (s : State) : Host.Outcome State Fault Refusal :=
  let a := addr.toNat
  let n := len.toNat
  .next (s.reading hd opReadMem (beBytes 8 a ++ beBytes 2 n ++ zeros 2) fun _ q =>
    let st := (q.accRange 0 a n).status
    if st ≠ 0 then (q, st, [])
    else
      let r := (q.cross 1 0 2 (q.farBytes 0 a n)).read a n 0 0x7F
      if r.2.2 then (r.1, stMem, []) else (r.1, stAccepted, r.2.1))

/-- The modified EUI-64 of the MAC address (R343). -/
def State.eui64 (s : State) : Nat :=
  let m := s.fuse.mac.toNat
  ((m / 2 ^ 24) ^^^ 0x020000) * 2 ^ 40 + 0xFFFE * 2 ^ 24 + m % 2 ^ 24

/-- The IPv6 link-local address (R343). -/
def State.ip6Local (s : State) : IpAddr := BitVec.ofNat 128 (0xFE80 * 2 ^ 112 + s.eui64)

/-- The IPv6 global address, 0 before SLAAC gives one. -/
def State.ip6Global (s : State) : IpAddr :=
  match s.host.ip6 with
  | none => 0
  | some p => BitVec.ofNat 128 (p.toNat * 2 ^ 64 + s.eui64)

/-- STATUS: MOD_STAT, OWN_STAT, OWN_EPOCH, STEP_STAT, then the IPv6 global address. -/
def execStatus (hd : Head) (s : State) : Host.Outcome State Fault Refusal :=
  .next (s.reading hd opStatus [] fun _ q =>
    let r := q.readRegs false [0x14, 0x10000, 0x10004, 0xB0000] []
    (r.1, stAccepted, r.2.2 ++ beBytes 16 q.ip6Global.toNat))

/-- SUBSCRIBE (R443). -/
def execSubscribe (hd : Head) (classes : Byte) (source : BitVec 16) (s : State) : Host.Outcome State Fault Refusal :=
  .next (s.reading hd opSubscribe (beBytes 1 classes.toNat ++ zeros 1 ++ beBytes 2 source.toNat) fun c q =>
    (q.modSess c.slot fun x => { x with classes := classes.setWidth 6, filter := source }, stAccepted, []))

/-- UNSUBSCRIBE: streaming to the session stops. -/
def execUnsubscribe (hd : Head) (s : State) : Host.Outcome State Fault Refusal :=
  .next (s.reading hd opUnsubscribe [] fun c q =>
    (q.modSess c.slot fun x => { x with classes := 0, filter := 0xFFFF, queue := [] }, stAccepted, []))

/-- The report of R462 up to its signature. -/
def State.report (s : State) (nonce : BitVec 384) : List Byte :=
  let x := s.sec
  let run := x.slotOf x.run
  let flags := b2n s.debugOn + 2 * b2n x.dbgSince + 4 * b2n s.img.loaded + 8 * b2n s.isHeld + 16 * b2n x.fallback
    + 32 * b2n (decide (64 < x.logCount)) + 64 * b2n x.coreFwBad
  leBytes 4 0x544C4154 ++ [0x10, 0, 0, 0] ++ leBytes 8 s.fuse.serial.toNat ++ leBytes 4 (s.raw 0).toNat
    ++ leBytes 2 ((s.raw 4).toNat % 65536) ++ [0, 0] ++ leBytes 2 run.ver.toNat
    ++ leBytes 1 run.svnM ++ leBytes 1 run.svnC ++ leBytes 1 x.fuseM ++ leBytes 1 x.fuseC ++ leBytes 2 flags
    ++ leBytes 4 s.ctl.own.epoch.toNat ++ leBytes 1 s.ownState ++ [0, 0, 0] ++ leBytes 8 s.step.committed.toNat
    ++ leBytes 8 s.timeCount.toNat ++ digBytes nonce ++ digBytes x.rom ++ digBytes x.mgmt ++ digBytes x.coreFw ++ digBytes s.img.hash
    ++ digBytes x.logDig ++ leBytes 4 x.logCount ++ [0, 0, 0, 0] ++ beBytes 16 (s.ctl.own.key.getD 0).toNat ++ beBytes 16 x.dbgKey.toNat

/-- ATTEST: the report and the device identity key's signature over it, made with the random number `draw` (R462, R463; log 7). -/
def execAttest (hd : Head) (nonce : BitVec 384) (draw : Nat) (s : State) : Host.Outcome State Fault Refusal :=
  .next (s.reading hd opAttest (digBytes nonce) fun _ q =>
    let sig := Config.deviceSign draw (Config.sha384 (q.report nonce))
    (q, stAccepted, q.report nonce ++ beBytes 96 sig.toNat))

/-! ## Queue pairs and regions (R347 to R349, R359) -/

/-- The lowest free place of `n`. -/
def freePlace (n : Nat) (used : Nat → Bool) : Option Nat := (upto n).find? fun i => !(used i)

def State.qp (s : State) (i : Nat) : QpSt := mapGet {} s.host.qps i
def State.modQp (s : State) (i : Nat) (f : QpSt → QpSt) : State := s.modHost fun h => { h with qps := mapMod {} h.qps i f }

/-- The port rate in Mb/s (R341). -/
def State.portRate (s : State) : Nat := if s.host.four then 800000 else 1600000

/-- Whether the arguments of QP_CREATE lie within R348 and R359. -/
def QpArgs.ok (a : QpArgs) : Bool :=
  decide (a.pmtu.toNat < 3) && decide (8 ≤ a.slotLog2.toNat) && decide (a.slotLog2.toNat ≤ 16) && a.slotCount != 0
    && decide (a.rqPsn.toNat < 2 ^ 24) && decide (field a.notify 14 8 < 96)

/-- First byte of slot `i` of a ring. -/
def QpSt.slotAt (q : QpSt) (i : Nat) : Nat := q.ring + i * 2 ^ q.slotLog2

/-- Every slot of a ring is made free; the flag says that an uncorrectable error was met (R348). -/
def State.freeRing (s : State) (q : QpSt) : State × Bool :=
  (upto q.slotCount).foldl
    (fun (p : State × Bool) i =>
      let a := q.slotAt i + 4
      let r := (p.1.cross 0 1 2 (p.1.farBytes 0 a 4)).write a (List.replicate 4 0xFF) 0x7F
      (r.1, p.2 || r.2))
    (s, false)

/-- QP_CREATE: the module draws the QPN, whose low byte is the index (R348; log 4). -/
def execQpCreate (hd : Head) (a : QpArgs) (s : State) : Host.Outcome State Fault Refusal :=
  .next (s.simple hd opQpCreate (argsQp a) fun t =>
    let ring := a.ringAddr.toNat
    let n := a.slotCount.toNat * 2 ^ a.slotLog2.toNat
    let st := (t.accRange 0 ring n).status
    if field a.notify 7 4 ≠ 0 then (t, stBad, [])
    else if !a.ok || t.touchesProg ring n then (t, stRefused, [])
    else if st ≠ 0 then (t, st, [])
    else
      match freePlace 256 fun i => (t.qp i).exists_ with
      | none => (t, stRefused, [])
      | some i =>
        let qpn := (Config.freeWord t.freeCtr).toNat % 2 ^ 16 * 256 + i
        let q : QpSt :=
          { exists_ := true, qpn := qpn, peer := a.peerIp, peerQpn := a.peerQpn, pmtu := 1024 * 2 ^ a.pmtu.toNat
            slotLog2 := a.slotLog2.toNat, slotCount := a.slotCount.toNat, ring := ring, notify := a.notify
            epsn := a.rqPsn.setWidth 24, rate := t.portRate }
        let r := t.freeRing q
        if r.2 then (r.1, stMem, []) else ((r.1.bumpFree 1).modQp i fun _ => q, stAccepted, beBytes 4 qpn))

/-- The index of a queue pair by its number. -/
def State.qpOf (s : State) (qpn : Nat) : Option Nat := (upto 256).find? fun i => (s.qp i).exists_ && (s.qp i).qpn == qpn

/-- QP_DESTROY. -/
def execQpDestroy (hd : Head) (qpn : Word) (s : State) : Host.Outcome State Fault Refusal :=
  .next (s.simple hd opQpDestroy (beBytes 4 qpn.toNat) fun t =>
    match t.qpOf qpn.toNat with
    | none => (t, stRefused, [])
    | some i => (t.modQp i fun _ => {}, stAccepted, []))

/-- MR_REG: the module draws the RKEY, whose low bits are the index (R347; log 4). -/
def execMrReg (hd : Head) (addr len : DWord) (access : Byte) (s : State) : Host.Outcome State Fault Refusal :=
  .next (s.simple hd opMrReg (beBytes 8 addr.toNat ++ beBytes 8 len.toNat ++ beBytes 1 access.toNat ++ zeros 3) fun t =>
    match freePlace 64 fun i => (mapGet {} t.host.mrs i : MrSt).exists_ with
    | none => (t, stRefused, [])
    | some i =>
      let key := (Config.freeWord t.freeCtr).toNat % 2 ^ 26 * 64 + i
      let m : MrSt :=
        { exists_ := true, rkey := w32 key, addr := addr.toNat, len := len.toNat, write := bit access 0, read := bit access 1 }
      ((t.bumpFree 1).modHost fun h => { h with mrs := mapSet {} h.mrs i m }, stAccepted, beBytes 4 key))

/-- The region of an rkey. -/
def State.mrOf (s : State) (rkey : Word) : Option (Nat × MrSt) :=
  s.host.mrs.find? fun p => p.2.exists_ && p.2.rkey == rkey

/-- MR_DEREG. -/
def execMrDereg (hd : Head) (rkey : Word) (s : State) : Host.Outcome State Fault Refusal :=
  .next (s.simple hd opMrDereg (beBytes 4 rkey.toNat) fun t =>
    match t.mrOf rkey with
    | none => (t, stRefused, [])
    | some (i, _) => (t.modHost fun h => { h with mrs := mapDel h.mrs i }, stAccepted, []))

end Sys2Proof.Machine
end

