-- ==== Sys2Proof/Machine/Port.lean ====
section
/-! DEFINITION. The host port: training (R341), dropped frames (R342, R344, R346, R350), addresses (R343), pause frames and
congestion (R345), and the RoCE v2 responder (R346 to R349). -/

namespace Sys2Proof.Machine

/-! ## The port (R341) -/

/-- The port runs in a mode. -/
def State.portUp (s : State) (four : Bool) : State := s.modHost fun h => { h with up := true, four := four, training := false }

/-- HOST_PORT_TRAINED: `lanes` are those that have trained. -/
def execHostPortTrained (lanes : Byte) (s : State) : Host.Outcome State Fault Refusal :=
  let low := decide (lanes.toNat % 16 = 15)
  if s.host.training then
    if bit (s.raw 0x70004) 0 then .next (if low then s.portUp true else s)
    else .next (if lanes = 0xFF then s.portUp false else s)
  else .next s

/-- HOST_TRAIN_TIMEOUT: 500 ms have passed with fewer than 8 lanes; lanes 0 to 3 carry the port, or it trains again. -/
def execHostTrainTimeout (lanes : Byte) (s : State) : Host.Outcome State Fault Refusal :=
  if s.host.training && decide (s.host.trainAt + 500000000 ≤ s.now) && lanes != 0xFF then
    .next (if lanes.toNat % 16 = 15 then s.portUp true else s.modHost fun h => { h with trainAt := s.now })
  else .next s

/-- HOST_LANE_FAIL: the port goes down and trains again; frames in it are lost (log 60). -/
def execHostLaneFail (s : State) : Host.Outcome State Fault Refusal :=
  .next (if s.host.up then s.modHost fun h =>
    { h with
      up := false, training := true, trainAt := s.now, paused := 0, waiting := [], fillMgmt := 0, fillBulk := 0, xoff := false }
    else s)

/-! ## Other frames (R342 to R345) -/

/-- ARP_FRAME: a request for the module's address is answered. -/
def execArpFrame (from_ target : BitVec 32) (s : State) : Host.Outcome State Fault Refusal :=
  .next (if s.serves && target != 0 && target == s.ip4 then s.emit (.arp from_ target) else s)

/-- NEIGHBOR_DISCOVERY: a solicitation is answered; a router's prefix gives the global address, and sessions on the old one
close (R343). -/
def execNeighborDiscovery (m : NdMsg) (s : State) : Host.Outcome State Fault Refusal :=
  if s.serves then
    match m with
    | .solicit target from_ =>
      .next (if target = s.ip6Local ∨ (s.host.ip6.isSome ∧ target = s.ip6Global) then s.emit (.neighbor from_ target) else s)
    | .routerAdv pfx =>
      if s.host.ip6 = some pfx then .next s
      else
        let s1 := s.modHost fun h => { h with ip6 := some pfx }
        .next (if s.host.ip6.isSome then s1.closeBound s.ip6Global else s1)
  else .next s

/-- Whether an address is the module's. -/
def State.isMine (s : State) (a : IpAddr) : Bool :=
  a == s.ip6Local || (s.host.ip6.isSome && a == s.ip6Global) || (s.ip4 != 0 && a == mapped s.ip4)

/-- ICMP_ECHO: an echo request is answered. -/
def execIcmpEcho (ip : IpIn) (data : List Byte) (s : State) : Host.Outcome State Fault Refusal :=
  if s.serves && s.isMine ip.addr.module then
    let r := s.frameIn ip.eth false
    .next (if r.2 then r.1.emit (.echo ip.addr data) else r.1)
  else .next s

/-- DHCP_MESSAGE: an offer is requested; an acknowledgement sets the address, a refusal drops it, and sessions on the old one
close (R343). -/
def execDhcpMessage (m : DhcpIn) (s : State) : Host.Outcome State Fault Refusal :=
  if s.serves && bit (s.raw 0x70004) 1 then
    let r := s.frameIn m.eth false
    let t := r.1
    if !r.2 then .next t
    else match m.msg with
      | .offer addr => .next (t.emit (.dhcpRequest addr))
      | .ack addr => .next ((t.modHost fun h => { h with dhcp := addr }).ip4Changed t.ip4)
      | .nak => .next ((t.modHost fun h => { h with dhcp := 0 }).ip4Changed t.ip4)
  else .next s

/-- PAUSE_FRAME_RX: obeyed on a priority of PFC_MASK other than that of management, and counted (R345, R372): the bulk class waits
while its priority is paused. -/
def execPauseFrameRx (prio : Fin 8) (xoff : Bool) (s : State) : Host.Outcome State Fault Refusal :=
  if s.host.up then
    let s1 := s.bump 0x70054
    if s.pfcOn prio then
      .next (s1.modHost fun h => { h with paused := BitVec.ofNat 8 (setField h.paused prio prio (b2n xoff)).toNat }).flushBulk
    else .next s1
  else .next s

/-! ## RoCE (R345 to R349) -/

/-- A RoCE packet that reaches its queue pair: dropped and counted otherwise; a packet marked CE brings a CNP, at most one in
50 µs (R344 to R346). -/
def State.roceIn (s0 : State) (b : RoceHead) : State × Option Nat :=
  let r := s0.frameIn b.eth true
  let s := r.1
  if !r.2 then (s, none)
  else if !b.icrcOk then (s.bump 0x70050, none)
  else
    match s.qpOf b.qpn.toNat with
    | none => (s.bump rxDrop, none)
    | some i =>
      let q := s.qp i
      if q.peer ≠ b.peer then (s.bump rxDrop, none)
      else
        let due := match q.cnpTx with | none => true | some t => decide (t + 50000 ≤ s.now)
        let s1 := if b.ce && due then
            ((s.modQp i fun x => { x with cnpTx := some s.now }).emitBulk (.roce q.peerQpn b.psn .cnp)).bump 0x7005C
          else s
        (s1, if q.err then none else some i)

/-- Answer on a queue pair. -/
def State.answer (s : State) (i : Nat) (psn : BitVec 24) (o : RoceOut) : State := s.emitBulk (.roce (s.qp i).peerQpn psn o)

/-- HOST_FRAME_DROP: the frame is dropped and counted; an unsupported opcode on a queue pair is answered (R346), a datagram to
no port too (R342). -/
def execHostFrameDrop (k : DropKind) (s : State) : Host.Outcome State Fault Refusal :=
  if s.host.up then
    match k with
    | .icrc => .next (s.bump 0x70050)
    | .fcs => .next (s.bump 0x70064)
    | .badAukor => .next (s.bump 0x70044)
    | .roceOpcode b =>
      let r := s.roceIn b
      match r.2 with
      | none => .next r.1
      | some i => .next (r.1.answer i b.psn .nakInvalid)
    | .udpPort a => .next (s.noPort a)
    | _ => .next (s.bump rxDrop)
  else .next s

/-- NAK Remote Operational Error, and the queue pair is in error (R349). -/
def State.opError (s : State) (i : Nat) (psn : BitVec 24) : State :=
  (s.answer i psn .nakOp).modQp i fun x => { x with err := true, msg := none, wr := none }

/-- The place of a PSN: 0 the one expected, 1 ahead of it, 2 before it. The manual leaves PSN order to RoCE v2 (log 41). -/
def QpSt.order (q : QpSt) (psn : BitVec 24) : Nat :=
  let d := (psn - q.epsn).toNat
  if d = 0 then 0 else if d < 2 ^ 23 then 1 else 2

/-- A packet of a message in the order and size that its position asks for. -/
def posOk (pos : RocePos) (inside_ : Bool) (pmtu n : Nat) : Bool :=
  match pos with
  | .first => !inside_ && n == pmtu
  | .middle => inside_ && n == pmtu
  | .last => inside_ && decide (1 ≤ n) && decide (n ≤ pmtu)
  | .only => !inside_ && decide (n ≤ pmtu)

def RocePos.ends (p : RocePos) : Bool := p == .last || p == .only
def RocePos.begins (p : RocePos) : Bool := p == .first || p == .only

/-- Write host data to module memory; false where it cannot be reached or meets an uncorrectable location (R185, R349). -/
def State.hostWrite (s : State) (a : Nat) (l : List Byte) : State × Bool :=
  if s.accRange 0 a l.length ≠ .ok then (s, false)
  else let r := (s.cross 0 1 2 (s.farBytes 0 a l.length)).write a l 0x7F; (r.1, !r.2)

/-- A received message goes into the next slot: length and data, then the sequence word, then the receive counter (R348). -/
def State.ringPut (s : State) (i : Nat) (l : List Byte) : State × Bool :=
  let q := s.qp i
  let a := q.slotAt q.nextSlot
  let r1 := s.hostWrite a (leBytes 4 l.length)
  let r2 := r1.1.hostWrite (a + 8) l
  let r3 := r2.1.hostWrite (a + 4) (leBytes 4 q.seq.toNat)
  if r1.2 && r2.2 && r3.2 then
    let s1 := r3.1.modQp i fun x =>
      { x with nextSlot := (x.nextSlot + 1) % x.slotCount, seq := if x.seq = 0xFFFFFFFE then 0 else x.seq + 1, msg := none }
    (if bit q.notify 15 then s1.addRc (field q.notify 14 8) (field q.notify 3 0) 1 else s1, true)
  else (r3.1, false)

/-- A SEND packet of the expected PSN (R348). -/
def State.sendNow (s : State) (i : Nat) (psn : BitVec 24) (pos : RocePos) (data : List Byte) : State :=
  let q := s.qp i
  let a := q.slotAt q.nextSlot
  let all := q.msg.getD [] ++ data
  if !(posOk pos q.msg.isSome q.pmtu data.length) || q.wr.isSome || decide (2 ^ q.slotLog2 - 8 < all.length) then
    (s.answer i psn .nakInvalid).modQp i fun x => { x with msg := none }
  else if s.accRange 0 a (2 ^ q.slotLog2) ≠ .ok then s.opError i psn
  else
  let w := if pos.begins then s.read (a + 4) 4 0 0x7F else (s, [], false)
  if pos.begins && leNat w.2.1 != 0xFFFFFFFF then (w.1.answer i psn .rnr).bump 0x70060
  else
    let s1 := w.1.modQp i fun x => { x with epsn := x.epsn + 1, msg := some all }
    if pos.ends then
      let r := s1.ringPut i all
      if r.2 then r.1.answer i psn .ack else r.1.opError i psn
    else s1

/-- ROCE_SEND. -/
def execRoceSend (b : RoceHead) (pos : RocePos) (data : List Byte) (s : State) : Host.Outcome State Fault Refusal :=
  if s.host.up then
    let r := s.roceIn b
    match r.2 with
    | none => .next r.1
    | some i =>
      let o := (r.1.qp i).order b.psn
      .next (if o = 0 then r.1.sendNow i b.psn pos data
        else if o = 1 then r.1.answer i (r.1.qp i).epsn .nakSeq
        else r.1.answer i b.psn .ack)
  else .next s

/-- Whether a region allows an access to `n` bytes at `a` (R347). -/
def State.mrAllows (s : State) (rkey : Word) (a n : Nat) (write : Bool) : Bool :=
  match s.mrOf rkey with
  | none => false
  | some (_, m) =>
    (if write then m.write else m.read) && inside a n m.addr m.len && s.oneRegion (a, max n 1) && !(s.touchesProg a n)
      && !(write && s.imgLocked a n)
      && decide (s.accRange 0 a n ≠ .addr)

/-- An RDMA WRITE packet of the expected PSN: its region is checked for the whole access before any byte is written (R347). -/
def State.rdmaNow (s : State) (i : Nat) (psn : BitVec 24) (pos : RocePos) (va : Nat) (rkey : Word) (len : Nat) (data : List Byte) :
    State :=
  let q := s.qp i
  let w := if pos.begins then (va, rkey, len) else q.wr.getD (0, 0, 0)
  let n := data.length
  let whole := if pos.ends then w.2.2 == n else decide (n < w.2.2)
  if !(posOk pos q.wr.isSome q.pmtu n) || q.msg.isSome || !whole then
    (s.answer i psn .nakInvalid).modQp i fun x => { x with wr := none }
  else if !(s.mrAllows w.2.1 w.1 w.2.2 true) then (s.answer i psn .nakAccess).modQp i fun x => { x with wr := none }
  else
    let r := s.hostWrite w.1 data
    if !r.2 then r.1.opError i psn
    else
      let s1 := r.1.modQp i fun x =>
        { x with epsn := x.epsn + 1, wr := if pos.ends then none else some (w.1 + n, w.2.1, w.2.2 - n) }
      if pos.ends then s1.answer i psn .ack else s1

/-- ROCE_RDMA_WRITE. -/
def execRoceRdmaWrite (b : RoceHead) (pos : RocePos) (va : DWord) (rkey len : Word) (data : List Byte) (s : State) :
    Host.Outcome State Fault Refusal :=
  if s.host.up then
    let r := s.roceIn b
    match r.2 with
    | none => .next r.1
    | some i =>
      let o := (r.1.qp i).order b.psn
      .next (if o = 0 then r.1.rdmaNow i b.psn pos va.toNat rkey len.toNat data
        else if o = 1 then r.1.answer i (r.1.qp i).epsn .nakSeq
        else r.1.answer i b.psn .ack)
  else .next s

/-- Packets of at most `n` bytes: at least one. -/
def chunksOf (n : Nat) : Nat → List Byte → List (List Byte)
  | 0, l => [l]
  | d + 1, l => if l.length ≤ n then [l] else l.take n :: chunksOf n d (l.drop n)

/-- READ data cut at the PMTU: the number of each packet, its position and its bytes (R346). -/
def cutAt (pmtu : Nat) (l : List Byte) : List (Nat × RocePos × List Byte) :=
  let cs := chunksOf pmtu l.length l
  cs.zipIdx.map fun p =>
    let last := p.2 + 1 == cs.length
    (p.2, if p.2 = 0 then (if last then .only else .first) else if last then .last else .middle, p.1)

/-- ROCE_RDMA_READ: the answer is cut at the PMTU (R346); memory is read when the request is processed (R347). A request sent again is served again. -/
def execRoceRdmaRead (b : RoceHead) (va : DWord) (rkey len : Word) (s : State) : Host.Outcome State Fault Refusal :=
  let a := va.toNat
  let n := len.toNat
  if s.host.up then
    let r := s.roceIn b
    match r.2 with
    | none => .next r.1
    | some i =>
      let s1 := r.1
      let q := s1.qp i
      let o := q.order b.psn
      if o = 1 then .next (s1.answer i q.epsn .nakSeq)
      else if q.msg.isSome || q.wr.isSome then .next (s1.answer i b.psn .nakInvalid)
      else if !(s1.mrAllows rkey a n false) then .next (s1.answer i b.psn .nakAccess)
      else if s1.accRange 0 a n ≠ .ok then .next (s1.opError i b.psn)
      else
        let d := (s1.cross 1 0 2 (s1.farBytes 0 a n)).read a n 0 0x7F
        if d.2.2 then .next (d.1.opError i b.psn)
        else
          let s2 := if o = 0 then
              d.1.modQp i fun x => { x with epsn := x.epsn + BitVec.ofNat 24 (max 1 (ceilDiv n q.pmtu)) }
            else d.1
          .next ((cutAt q.pmtu d.2.1).foldl (fun (t : State) p => t.answer i (b.psn + BitVec.ofNat 24 p.1) (.read p.2.1 p.2.2)) s2)
  else .next s

/-- ROCE_CNP_RX: the queue pair's READ response rate is halved, to no less than 1 Gb/s (R345). Its payload is reserved in RoCE v2 and is not
read. -/
def execRoceCnpRx (b : RoceHead) (_payload : List Byte) (s : State) : Host.Outcome State Fault Refusal :=
  if s.host.up then
    let r := s.roceIn { b with ce := false }
    match r.2 with
    | none => .next r.1
    | some i => .next (r.1.modQp i fun x => { x with rate := max 1000 (x.rate / 2), cnpRx := some s.now })
  else .next s

/-- ROCE_RATE_RECOVER: 55 µs without a CNP add 1/16 of the port rate (R345). -/
def execRoceRateRecover (qpn : BitVec 24) (s : State) : Host.Outcome State Fault Refusal :=
  match s.qpOf qpn.toNat with
  | none => .next s
  | some i =>
    let q := s.qp i
    match q.cnpRx with
    | none => .next s
    | some t =>
      let top := s.portRate
      let r := min top (q.rate + top / 16)
      .next (if t + 55000 ≤ s.now then s.modQp i fun x => { x with rate := r, cnpRx := if r = top then none else some s.now } else s)

end Sys2Proof.Machine
end

