-- ==== Sys2Proof/Machine/Regs.lean ====
section
/-! DEFINITION. The register accesses (R5 to R10) and the registers whose access is an operation of its own. -/

namespace Sys2Proof.Machine

/-- REG_WRITE: a write of any register (R5 to R10, R24). -/
def execRegWrite (r : Requester) (addr value : Word) (s : State) : Host.Outcome State Fault Refusal :=
  .next (s.writeAs r addr.toNat fun q => q.writeReg addr.toNat value)

/-- REG_READ_CLEAR: a read of a register; its RC fields clear for the owner and for I3C (R5, R8, R9, R24). -/
def execRegReadClear (r : Requester) (addr : Word) (s : State) : Host.Outcome State Fault Refusal :=
  .next (s.readAs r addr.toNat .ok)

/-- ARR_DBG_DATA0_READ: samples the accumulator entry of ARR_DBG_SEL in debug mode for the owner, else denied (R100, R101).
`e` is what the read of the entry meets. -/
def execArrDbgData0Read (r : Requester) (c : CoreId) (e : AccErr) (s : State) : Host.Outcome State Fault Refusal :=
  .next (s.readAs r (aArr c 0x084) e)

/-- STEP_COMMITTED_HI_WRITE (R237). -/
def execStepCommittedHiWrite (r : Requester) (value : Word) (s : State) : Host.Outcome State Fault Refusal :=
  .next (s.writeAs r 0xB001C fun q => q.writeReg 0xB001C value)

/-- TIME_ADJUST (R409). -/
def execTimeAdjust (r : Requester) (value : Word) (s : State) : Host.Outcome State Fault Refusal :=
  .next (s.writeAs r 0x3003C fun q => q.writeReg 0x3003C value)

/-- TRACE_RESTART (R447). -/
def execTraceRestart (r : Requester) (value : Word) (s : State) : Host.Outcome State Fault Refusal :=
  .next (s.writeAs r 0x50010 fun q => q.writeReg 0x50010 value)

/-- THREAD_STOP: CORE_THR_CTL with the bit of `t` set (R108). -/
def execThreadStop (r : Requester) (c : CoreId) (t : ThreadId) (s : State) : Host.Outcome State Fault Refusal :=
  .next (s.writeAs r (aCore c 0x010) fun q => q.writeReg (aCore c 0x010) (setField (q.core c).stop t t 1))

/-- THREAD_RESUME: CORE_THR_CTL with the bit of `t` clear (R108). -/
def execThreadResume (r : Requester) (c : CoreId) (t : ThreadId) (s : State) : Host.Outcome State Fault Refusal :=
  .next (s.writeAs r (aCore c 0x010) fun q => q.writeReg (aCore c 0x010) (setField (q.core c).stop t t 0))

/-- GATE_ENABLE (R411, R423). -/
def execGateEnable (r : Requester) (s : State) : Host.Outcome State Fault Refusal :=
  .next (s.writeAs r 0x30014 fun q => q.writeGate 1 false)

/-- GATE_DISABLE: refused where new work comes for a child in the same cycle (R411, R415, R423). -/
def execGateDisable (r : Requester) (newWork : Bool) (s : State) : Host.Outcome State Fault Refusal :=
  .next (s.writeAs r 0x30014 fun q => q.writeGate 0 newWork)

/-- STACK_ENABLE: PWR_STK_CTL with bit `j` set (R424). -/
def execStackEnable (r : Requester) (j : StackId) (s : State) : Host.Outcome State Fault Refusal :=
  .next (s.writeAs r 0x40030 fun q => q.writeReg 0x40030 (BitVec.ofNat 32 (setField q.pwr.stkEn j j 1).toNat))

/-- STACK_DISABLE: PWR_STK_CTL with bit `j` clear (R424). -/
def execStackDisable (r : Requester) (j : StackId) (s : State) : Host.Outcome State Fault Refusal :=
  .next (s.writeAs r 0x40030 fun q => q.writeReg 0x40030 (BitVec.ofNat 32 (setField q.pwr.stkEn j j 0).toNat))

/-- FM_START (R414). -/
def execFmStart (r : Requester) (value : Word) (s : State) : Host.Outcome State Fault Refusal :=
  .next (s.writeAs r 0x30020 fun q => q.writeReg 0x30020 value)

/-- RTE_TBL_DATA_WRITE (R313, R317). -/
def execRteTblDataWrite (r : Requester) (value : Word) (s : State) : Host.Outcome State Fault Refusal :=
  .next (s.writeAs r 0x90024 fun q => q.writeReg 0x90024 value)

/-- RTE_AXIS_WRITE (R313, R317). -/
def execRteAxisWrite (r : Requester) (a : AxisId) (value : Word) (s : State) : Host.Outcome State Fault Refusal :=
  .next (s.writeAs r (0x90010 + 4 * a) fun q => q.writeReg (0x90010 + 4 * a) value)

/-- RESOLVE_COMMIT (R232). -/
def execResolveCommit (r : Requester) (s : State) : Host.Outcome State Fault Refusal :=
  .next (s.writeAs r 0xB0008 fun q => q.writeReg 0xB0008 1)

/-- RESOLVE_ABORT (R232). -/
def execResolveAbort (r : Requester) (s : State) : Host.Outcome State Fault Refusal :=
  .next (s.writeAs r 0xB0008 fun q => q.writeReg 0xB0008 2)

end Sys2Proof.Machine
end

