-- ==== Sys2Proof/Machine/Scalar.lean ====
section
/-! DEFINITION. The scalar instructions (R111). -/

namespace Sys2Proof.Machine

/-- A scalar instruction with the value `g` of RB and RC in RA (R111). -/
def scalar3 (c : CoreId) (t : ThreadId) (f : IFields) (g : DWord → DWord → DWord) (s : State) :
    Host.Outcome State Fault Refusal :=
  s.issue c t [f.ra, f.rb, f.rc] (f.plain && f.rd == 0 && f.imm == 0) fun s1 x =>
    s1.retire c t x f.ra (g (x.sreg f.rb) (x.sreg f.rc))

/-- A scalar instruction with the value `g` of RB and the immediate in RA (R111). -/
def scalarI (c : CoreId) (t : ThreadId) (f : IFields) (g : DWord → DWord) (s : State) :
    Host.Outcome State Fault Refusal :=
  s.issue c t [f.ra, f.rb] (f.plain && f.rc == 0 && f.rd == 0) fun s1 x => s1.retire c t x f.ra (g (x.sreg f.rb))

/-- The shift amount RC[5:0] (R111). -/
def shamt (b : DWord) : Nat := b.toNat % 64

/-- NOP (R111). -/
def execNop (c : CoreId) (t : ThreadId) (f : IFields) (s : State) : Host.Outcome State Fault Refusal :=
  s.decoded c t (0, 0x00) f <|
  s.issue c t [] (f.plain && f.ra == 0 && f.rb == 0 && f.rc == 0 && f.rd == 0 && f.imm == 0) fun s1 x => .done s1 x.next

/-- ADD: RB + RC modulo 2^64 (R111). -/
def execAdd (c : CoreId) (t : ThreadId) (f : IFields) (s : State) : Host.Outcome State Fault Refusal :=
  s.decoded c t (0, 0x01) f <|
  scalar3 c t f (fun a b => a + b) s

/-- ADDI: RB + IMM (R111). -/
def execAddi (c : CoreId) (t : ThreadId) (f : IFields) (s : State) : Host.Outcome State Fault Refusal :=
  s.decoded c t (0, 0x02) f <|
  scalarI c t f (fun a => a + f.simm) s

/-- SUB: RB - RC (R111). -/
def execSub (c : CoreId) (t : ThreadId) (f : IFields) (s : State) : Host.Outcome State Fault Refusal :=
  s.decoded c t (0, 0x03) f <|
  scalar3 c t f (fun a b => a - b) s

/-- AND (R111). -/
def execAnd (c : CoreId) (t : ThreadId) (f : IFields) (s : State) : Host.Outcome State Fault Refusal :=
  s.decoded c t (0, 0x04) f <|
  scalar3 c t f (fun a b => a &&& b) s

/-- OR (R111). -/
def execOr (c : CoreId) (t : ThreadId) (f : IFields) (s : State) : Host.Outcome State Fault Refusal :=
  s.decoded c t (0, 0x05) f <|
  scalar3 c t f (fun a b => a ||| b) s

/-- XOR (R111). -/
def execXor (c : CoreId) (t : ThreadId) (f : IFields) (s : State) : Host.Outcome State Fault Refusal :=
  s.decoded c t (0, 0x06) f <|
  scalar3 c t f (fun a b => a ^^^ b) s

/-- SHL by RC[5:0] (R111). -/
def execShl (c : CoreId) (t : ThreadId) (f : IFields) (s : State) : Host.Outcome State Fault Refusal :=
  s.decoded c t (0, 0x07) f <|
  scalar3 c t f (fun a b => a <<< shamt b) s

/-- SHR, logical (R111). -/
def execShr (c : CoreId) (t : ThreadId) (f : IFields) (s : State) : Host.Outcome State Fault Refusal :=
  s.decoded c t (0, 0x08) f <|
  scalar3 c t f (fun a b => a >>> shamt b) s

/-- SAR, arithmetic (R111). -/
def execSar (c : CoreId) (t : ThreadId) (f : IFields) (s : State) : Host.Outcome State Fault Refusal :=
  s.decoded c t (0, 0x09) f <|
  scalar3 c t f (fun a b => a.sshiftRight (shamt b)) s

/-- LI: the sign-extended immediate (R111). -/
def execLi (c : CoreId) (t : ThreadId) (f : IFields) (s : State) : Host.Outcome State Fault Refusal :=
  s.decoded c t (0, 0x0A) f <|
  s.issue c t [f.ra] (f.plain && f.rb == 0 && f.rc == 0 && f.rd == 0) fun s1 x => s1.retire c t x f.ra f.simm

/-- LSH: RB * 2^30 + IMM unsigned (R111). -/
def execLsh (c : CoreId) (t : ThreadId) (f : IFields) (s : State) : Host.Outcome State Fault Refusal :=
  s.decoded c t (0, 0x0B) f <|
  scalarI c t f (fun a => (a <<< 30) + f.imm.setWidth 64) s

/-- MUL: the low 64 bits of the product (R111). -/
def execMul (c : CoreId) (t : ThreadId) (f : IFields) (s : State) : Host.Outcome State Fault Refusal :=
  s.decoded c t (0, 0x0C) f <|
  scalar3 c t f (fun a b => a * b) s

/-- MULH: the high 64 bits of the signed product (R111). -/
def execMulh (c : CoreId) (t : ThreadId) (f : IFields) (s : State) : Host.Outcome State Fault Refusal :=
  s.decoded c t (0, 0x0D) f <|
  scalar3 c t f (fun a b => BitVec.ofInt 64 ((a.toInt * b.toInt) / (2 ^ 64 : Nat))) s

/-- DIVU: the unsigned quotient, all ones when RC is 0 (R111). -/
def execDivu (c : CoreId) (t : ThreadId) (f : IFields) (s : State) : Host.Outcome State Fault Refusal :=
  s.decoded c t (0, 0x0E) f <|
  scalar3 c t f (fun a b => if b = 0 then BitVec.allOnes 64 else BitVec.ofNat 64 (a.toNat / b.toNat)) s

/-- REMU: the unsigned remainder, RB when RC is 0 (R111). -/
def execRemu (c : CoreId) (t : ThreadId) (f : IFields) (s : State) : Host.Outcome State Fault Refusal :=
  s.decoded c t (0, 0x0F) f <|
  scalar3 c t f (fun a b => if b = 0 then a else BitVec.ofNat 64 (a.toNat % b.toNat)) s

/-- SLT, signed (R111). -/
def execSlt (c : CoreId) (t : ThreadId) (f : IFields) (s : State) : Host.Outcome State Fault Refusal :=
  s.decoded c t (0, 0x10) f <|
  scalar3 c t f (fun a b => if a.slt b then 1 else 0) s

/-- SLTU, unsigned (R111). -/
def execSltu (c : CoreId) (t : ThreadId) (f : IFields) (s : State) : Host.Outcome State Fault Refusal :=
  s.decoded c t (0, 0x11) f <|
  scalar3 c t f (fun a b => if a.ult b then 1 else 0) s

/-- SEL: RB when RD is not 0, else RC (R111). -/
def execSel (c : CoreId) (t : ThreadId) (f : IFields) (s : State) : Host.Outcome State Fault Refusal :=
  s.decoded c t (0, 0x12) f <|
  s.issue c t [f.ra, f.rb, f.rc, f.rd] (f.plain && f.imm == 0) fun s1 x =>
    s1.retire c t x f.ra (if x.sreg f.rd ≠ 0 then x.sreg f.rb else x.sreg f.rc)

/-- A scalar load of `n` bytes at RB + IMM, zero-extended (R111). -/
def scalarLoad (c : CoreId) (t : ThreadId) (f : IFields) (n : Nat) (s : State) : Host.Outcome State Fault Refusal :=
  s.issue c t [f.ra, f.rb] (f.plain && f.rc == 0 && f.rd == 0) fun s1 x =>
    let a := x.sreg f.rb + f.simm
    match loadFault c a.toNat n n with
    | some e => .raise e a
    | none =>
      let p := s1.loadBytes c t a.toNat n
      p.1.retire c t (p.1.thread c t) f.ra (BitVec.ofNat 64 (leNat p.2))

/-- LD8 (R111). -/
def execLd8 (c : CoreId) (t : ThreadId) (f : IFields) (s : State) : Host.Outcome State Fault Refusal :=
  s.decoded c t (0, 0x20) f <| scalarLoad c t f 1 s

/-- LD16 (R111). -/
def execLd16 (c : CoreId) (t : ThreadId) (f : IFields) (s : State) : Host.Outcome State Fault Refusal :=
  s.decoded c t (0, 0x21) f <| scalarLoad c t f 2 s

/-- LD32 (R111). -/
def execLd32 (c : CoreId) (t : ThreadId) (f : IFields) (s : State) : Host.Outcome State Fault Refusal :=
  s.decoded c t (0, 0x22) f <| scalarLoad c t f 4 s

/-- LD64 (R111). -/
def execLd64 (c : CoreId) (t : ThreadId) (f : IFields) (s : State) : Host.Outcome State Fault Refusal :=
  s.decoded c t (0, 0x23) f <| scalarLoad c t f 8 s

/-- A scalar store of the low `n` bytes of RC at RB + IMM (R111). -/
def scalarStore (c : CoreId) (t : ThreadId) (f : IFields) (n : Nat) (s : State) : Host.Outcome State Fault Refusal :=
  s.issue c t [f.rb, f.rc] (f.plain && f.ra == 0 && f.rd == 0) fun s1 x =>
    let a := x.sreg f.rb + f.simm
    match s1.storeFault c a.toNat n n with
    | some e => .raise e a
    | none => .done (s1.storeBytes c t a.toNat (leBytes n (x.sreg f.rc).toNat)) x.next

/-- ST8 (R111). -/
def execSt8 (c : CoreId) (t : ThreadId) (f : IFields) (s : State) : Host.Outcome State Fault Refusal :=
  s.decoded c t (0, 0x24) f <| scalarStore c t f 1 s

/-- ST16 (R111). -/
def execSt16 (c : CoreId) (t : ThreadId) (f : IFields) (s : State) : Host.Outcome State Fault Refusal :=
  s.decoded c t (0, 0x25) f <| scalarStore c t f 2 s

/-- ST32 (R111). -/
def execSt32 (c : CoreId) (t : ThreadId) (f : IFields) (s : State) : Host.Outcome State Fault Refusal :=
  s.decoded c t (0, 0x26) f <| scalarStore c t f 4 s

/-- ST64 (R111). -/
def execSt64 (c : CoreId) (t : ThreadId) (f : IFields) (s : State) : Host.Outcome State Fault Refusal :=
  s.decoded c t (0, 0x27) f <| scalarStore c t f 8 s

/-- The target PC + IMM * 8 modulo 2^64 (R106, R111). -/
def ThreadSt.target (x : ThreadSt) (f : IFields) : DWord := x.pc + (f.simm <<< 3)

/-- A branch on RB and RC (R111). -/
def branch (c : CoreId) (t : ThreadId) (f : IFields) (p : DWord → DWord → Bool) (s : State) :
    Host.Outcome State Fault Refusal :=
  s.issue c t [f.rb, f.rc] (f.plain && f.ra == 0 && f.rd == 0) fun s1 x =>
    .done s1 (if p (x.sreg f.rb) (x.sreg f.rc) then x.target f else x.next)

/-- BEQ (R111). -/
def execBeq (c : CoreId) (t : ThreadId) (f : IFields) (s : State) : Host.Outcome State Fault Refusal :=
  s.decoded c t (0, 0x30) f <|
  branch c t f (fun a b => a == b) s

/-- BNE (R111). -/
def execBne (c : CoreId) (t : ThreadId) (f : IFields) (s : State) : Host.Outcome State Fault Refusal :=
  s.decoded c t (0, 0x31) f <|
  branch c t f (fun a b => a != b) s

/-- BLT, signed (R111). -/
def execBlt (c : CoreId) (t : ThreadId) (f : IFields) (s : State) : Host.Outcome State Fault Refusal :=
  s.decoded c t (0, 0x32) f <|
  branch c t f (fun a b => a.slt b) s

/-- BGE, signed (R111). -/
def execBge (c : CoreId) (t : ThreadId) (f : IFields) (s : State) : Host.Outcome State Fault Refusal :=
  s.decoded c t (0, 0x33) f <|
  branch c t f (fun a b => !(a.slt b)) s

/-- BLTU, unsigned (R111). -/
def execBltu (c : CoreId) (t : ThreadId) (f : IFields) (s : State) : Host.Outcome State Fault Refusal :=
  s.decoded c t (0, 0x34) f <|
  branch c t f (fun a b => a.ult b) s

/-- JAL: RA = PC + 8, PC = PC + IMM * 8 (R111). -/
def execJal (c : CoreId) (t : ThreadId) (f : IFields) (s : State) : Host.Outcome State Fault Refusal :=
  s.decoded c t (0, 0x38) f <|
  s.issue c t [f.ra] (f.plain && f.rb == 0 && f.rc == 0 && f.rd == 0) fun s1 x =>
    .done (s1.setThread c t (x.setS f.ra x.next)) (x.target f)

/-- JALR: RA = PC + 8, PC = RB + IMM * 8; a target with bits [2:0] set raises ALIGN, with bits [63:26] set PROT (R106). -/
def execJalr (c : CoreId) (t : ThreadId) (f : IFields) (s : State) : Host.Outcome State Fault Refusal :=
  s.decoded c t (0, 0x39) f <|
  s.issue c t [f.ra, f.rb] (f.plain && f.rc == 0 && f.rd == 0) fun s1 x =>
    let a := x.sreg f.rb + (f.simm <<< 3)
    if a.toNat % 8 ≠ 0 then .raise .align a
    else if 2 ^ 26 ≤ a.toNat then .raise .prot a
    else .done (s1.setThread c t (x.setS f.ra x.next)) a

/-- The job coordinate in the layout of LNK_JOB_COORD (R111, R281). -/
def State.coordWord (s : State) : Word :=
  if s.img.coordValid then
    BitVec.ofNat 32 (2 ^ 31 + s.img.coord.z * 65536 + s.img.coord.y * 256 + s.img.coord.x)
  else 0

/-- The special values of SRD (R111). -/
def State.special (s : State) (c t : Nat) : Nat → DWord
  | 0 => s.step.committed
  | 1 => s.step.attempt.setWidth 64
  | 2 => BitVec.ofNat 64 s.step.micro
  | 3 => s.timeCount
  | 4 => BitVec.ofNat 64 c
  | 5 => BitVec.ofNat 64 t
  | 6 => s.coordWord.setWidth 64
  | _ => if s.debugOn then 1 else 0

/-- SRD: the special value IMM[3:0]; 8 to 15 are refused (R111). -/
def execSrd (c : CoreId) (t : ThreadId) (f : IFields) (s : State) : Host.Outcome State Fault Refusal :=
  s.decoded c t (0, 0x3C) f <|
  s.issue c t [f.ra] (f.plain && f.rb == 0 && f.rc == 0 && f.rd == 0 && decide (f.imm.toNat < 8)) fun s1 x =>
    s1.retire c t x f.ra (s1.special c t f.imm.toNat)

/-- FETCH_PROT: a thread whose PC lies outside the program region raises PROT; the PC is the offending address (R106). -/
def execFetchProt (c : CoreId) (t : ThreadId) (s : State) : Host.Outcome State Fault Refusal :=
  let k := s.core c
  let x := k.thread t
  if s.running && s.blockOn c 2 && k.ready && !k.faultState && decide (x.st = .run) && decide (x.waitOn = .none) && !(s.pcOk c x.pc) then
    .next (s.exception c t .prot x.pc)
  else .next s

end Sys2Proof.Machine
end

