-- ==== Sys2Proof/Machine/Vector.lean ====
section
/-! DEFINITION. The vector instructions of the arithmetic, conversion and reduction groups (R112, R144 to R150, R155,
R157, R159). -/

namespace Sys2Proof.Machine

/-! ## The fields of IMM (R143) -/

def IFields.fmtD (f : IFields) : Nat := f.im 29 26
def IFields.fmtS (f : IFields) : Nat := f.im 25 22
def IFields.scale (f : IFields) : Int := sgn 8 (f.im 21 14)
def IFields.scb (f : IFields) : Bool := bit f.imm 13
def IFields.part (f : IFields) : Nat := f.im 12 10
def IFields.recBit (f : IFields) : Bool := bit f.imm 9
def IFields.mod (f : IFields) : Nat := f.im 8 0

/-- A scale in -126 to +127 (R143). -/
def IFields.scaleOk (f : IFields) : Bool := decide (-126 ≤ f.scale)

/-- Formats of the arithmetic opcodes (R145). -/
def arithFmt (c : Nat) : Bool := decide (c < 5)

/-- The floating format of a code; binary32 where it has none (never reached after the checks). -/
def ffmt (c : Nat) : FFmt := (fmtOf c).getD fB32

/-- Source operand RC of an arithmetic opcode, lane `i` of width `w`: a vector lane, or with SCB the low bits of a scalar
register in every lane (R143). -/
def rcLane (x : ThreadSt) (f : IFields) (w i : Nat) : Nat :=
  if f.scb then (x.sreg f.rc).toNat % 2 ^ w else VReg.lane (x.vreg f.rc.toNat) w i

/-- RC is a vector field of at most 15 unless SCB makes it a scalar one (R110, R143). -/
def rcOk (f : IFields) : Bool := f.scb || vok f.rc

/-- The scalar registers that RC names. -/
def rcRegs (f : IFields) : List (BitVec 5) := if f.scb then [f.rc] else []

/-- Fields SCALE, PART and REC are 0 (R143). -/
def noScalePartRec (f : IFields) : Bool := f.im 21 14 == 0 && f.part == 0 && !f.recBit

/-- FMT_S and FMT_D of an arithmetic opcode: both of R145, with one width. -/
def arithFmts (f : IFields) : Bool :=
  arithFmt f.fmtS && arithFmt f.fmtD && elemBits f.fmtS == elemBits f.fmtD

/-- A vector result in v[RA], and on to the next instruction. -/
def State.retireV (s : State) (c t : Nat) (x : ThreadSt) (ra : BitVec 5) (v : VReg) : Issue :=
  .done (s.setThread c t (x.setV ra.toNat v)) x.next

/-- A lane-wise instruction of two sources (R145). -/
def arith2 (c : CoreId) (t : ThreadId) (f : IFields) (g : FV → FV → FV) (s : State) :
    Host.Outcome State Fault Refusal :=
  s.vissue c t (rcRegs f)
    (f.plain && f.rd == 0 && f.mod == 0 && noScalePartRec f && arithFmts f && vok f.ra && vok f.rb && rcOk f)
    fun s1 x =>
      let w := elemBits f.fmtS
      s1.retireV c t x f.ra (mkV w (2048 / w) fun i =>
        ((ffmt f.fmtD).round (g ((ffmt f.fmtS).decode (VReg.lane (x.vreg f.rb.toNat) w i))
          ((ffmt f.fmtS).decode (rcLane x f w i)))).code)

/-- A lane-wise instruction of one source (R145). -/
def arith1 (c : CoreId) (t : ThreadId) (f : IFields) (g : FV → FV) (s : State) : Host.Outcome State Fault Refusal :=
  s.vissue c t []
    (f.plain && f.rc == 0 && f.rd == 0 && f.mod == 0 && !f.scb && noScalePartRec f && arithFmts f && vok f.ra && vok f.rb)
    fun s1 x =>
      let w := elemBits f.fmtS
      s1.retireV c t x f.ra (mkV w (2048 / w) fun i =>
        ((ffmt f.fmtD).round (g ((ffmt f.fmtS).decode (VReg.lane (x.vreg f.rb.toNat) w i)))).code)

/-- VADD (R145). -/
def execVadd (c : CoreId) (t : ThreadId) (f : IFields) (s : State) : Host.Outcome State Fault Refusal :=
  s.decoded c t (1, 0x08) f <| arith2 c t f FV.add s

/-- VSUB: b - c (R145). -/
def execVsub (c : CoreId) (t : ThreadId) (f : IFields) (s : State) : Host.Outcome State Fault Refusal :=
  s.decoded c t (1, 0x09) f <|
  arith2 c t f (fun a b => FV.add a b.neg) s

/-- VMUL (R145). -/
def execVmul (c : CoreId) (t : ThreadId) (f : IFields) (s : State) : Host.Outcome State Fault Refusal :=
  s.decoded c t (1, 0x0A) f <| arith2 c t f FV.mul s

/-- VMIN (R145). -/
def execVmin (c : CoreId) (t : ThreadId) (f : IFields) (s : State) : Host.Outcome State Fault Refusal :=
  s.decoded c t (1, 0x0C) f <| arith2 c t f fvMin s

/-- VMAX (R145). -/
def execVmax (c : CoreId) (t : ThreadId) (f : IFields) (s : State) : Host.Outcome State Fault Refusal :=
  s.decoded c t (1, 0x0D) f <| arith2 c t f fvMax s

/-- VDIV (R145). -/
def execVdiv (c : CoreId) (t : ThreadId) (f : IFields) (s : State) : Host.Outcome State Fault Refusal :=
  s.decoded c t (1, 0x10) f <| arith2 c t f FV.div s

/-- VABS: sign cleared, NaN canonical (R144). -/
def execVabs (c : CoreId) (t : ThreadId) (f : IFields) (s : State) : Host.Outcome State Fault Refusal :=
  s.decoded c t (1, 0x0E) f <| arith1 c t f FV.abs s

/-- VNEG: sign inverted, NaN canonical (R144). -/
def execVneg (c : CoreId) (t : ThreadId) (f : IFields) (s : State) : Host.Outcome State Fault Refusal :=
  s.decoded c t (1, 0x0F) f <| arith1 c t f FV.neg s

/-- VSQRT (R145). -/
def execVsqrt (c : CoreId) (t : ThreadId) (f : IFields) (s : State) : Host.Outcome State Fault Refusal :=
  s.decoded c t (1, 0x11) f <| arith1 c t f FV.sqrt s

/-- VFMA: one rounding of b * c + d (R145). -/
def execVfma (c : CoreId) (t : ThreadId) (f : IFields) (s : State) : Host.Outcome State Fault Refusal :=
  s.decoded c t (1, 0x0B) f <|
  s.vissue c t (rcRegs f)
    (f.plain && f.mod == 0 && noScalePartRec f && arithFmts f && vok f.ra && vok f.rb && rcOk f && vok f.rd)
    fun s1 x =>
      let w := elemBits f.fmtS
      let d := (ffmt f.fmtS).decode
      s1.retireV c t x f.ra (mkV w (2048 / w) fun i =>
        ((ffmt f.fmtD).round (FV.add (FV.mul (d (VReg.lane (x.vreg f.rb.toNat) w i)) (d (rcLane x f w i)))
          (d (VReg.lane (x.vreg f.rd.toNat) w i)))).code)

/-- The relations of VCMP (R144): false for a NaN except under UN and NE (R145). -/
def cmpRel (m : Nat) (a b : FV) : Bool :=
  match m with
  | 0 => FV.eqv a b
  | 1 => FV.lt a b
  | 2 => FV.lt a b || FV.eqv a b
  | 3 => a.isNan || b.isNan
  | _ => !(FV.eqv a b)

/-- VCMP (R144, R145). -/
def execVcmp (c : CoreId) (t : ThreadId) (f : IFields) (s : State) : Host.Outcome State Fault Refusal :=
  s.decoded c t (1, 0x14) f <|
  s.vissue c t (rcRegs f)
    (f.plain && f.rd == 0 && decide (f.mod ≤ 4) && noScalePartRec f && arithFmt f.fmtS && f.fmtS == f.fmtD
      && vok f.ra && vok f.rb && rcOk f)
    fun s1 x =>
      let w := elemBits f.fmtS
      s1.retireV c t x f.ra (mkV w (2048 / w) fun i =>
        if cmpRel f.mod ((ffmt f.fmtS).decode (VReg.lane (x.vreg f.rb.toNat) w i)) ((ffmt f.fmtS).decode (rcLane x f w i))
        then 2 ^ w - 1 else 0)

/-- VSEL: b where the lane of d is not 0, else c, at the width of FMT_S (R144). -/
def execVsel (c : CoreId) (t : ThreadId) (f : IFields) (s : State) : Host.Outcome State Fault Refusal :=
  s.decoded c t (1, 0x15) f <|
  s.vissue c t (rcRegs f)
    (f.plain && f.fmtD == 0 && f.mod == 0 && noScalePartRec f && decide (f.fmtS < 9) && vok f.ra && vok f.rb && rcOk f
      && vok f.rd)
    fun s1 x =>
      let w := elemBits f.fmtS
      s1.retireV c t x f.ra (mkV w (2048 / w) fun i =>
        if VReg.lane (x.vreg f.rd.toNat) w i ≠ 0 then VReg.lane (x.vreg f.rb.toNat) w i else rcLane x f w i)

/-- VMASK: bit i of s[RA] says that 32-bit lane i of b is not 0 (R144). -/
def execVmask (c : CoreId) (t : ThreadId) (f : IFields) (s : State) : Host.Outcome State Fault Refusal :=
  s.decoded c t (1, 0x16) f <|
  s.vissue c t [f.ra] (f.plain && f.rc == 0 && f.rd == 0 && f.imm == 0 && vok f.rb) fun s1 x =>
    s1.retire c t x f.ra (BitVec.ofNat 64 (((upto 64).map fun i =>
      if VReg.lane (x.vreg f.rb.toNat) 32 i ≠ 0 then 2 ^ i else 0).foldl (· + ·) 0))

/-- VBCAST: the low 32 bits of s[RB] in every 32-bit lane (R144). -/
def execVbcast (c : CoreId) (t : ThreadId) (f : IFields) (s : State) : Host.Outcome State Fault Refusal :=
  s.decoded c t (1, 0x17) f <|
  s.vissue c t [f.rb] (f.plain && f.rc == 0 && f.rd == 0 && f.imm == 0 && vok f.ra) fun s1 x =>
    s1.retireV c t x f.ra (mkV 32 64 fun _ => (x.sreg f.rb).toNat)

/-- VMOV (R144). -/
def execVmov (c : CoreId) (t : ThreadId) (f : IFields) (s : State) : Host.Outcome State Fault Refusal :=
  s.decoded c t (1, 0x18) f <|
  s.vissue c t [] (f.plain && f.rc == 0 && f.rd == 0 && f.imm == 0 && vok f.ra && vok f.rb) fun s1 x =>
    s1.retireV c t x f.ra (x.vreg f.rb.toNat)

/-! ## Loads and stores (R112, R157) -/

/-- The address s[RB] + IMM * 64 (R112). -/
def vaddr (x : ThreadSt) (f : IFields) : DWord := x.sreg f.rb + (f.simm <<< 6)

/-- VLD: 256 B of the own slice (R112). -/
def execVld (c : CoreId) (t : ThreadId) (f : IFields) (s : State) : Host.Outcome State Fault Refusal :=
  s.decoded c t (1, 0x00) f <|
  s.vissue c t [f.rb] (f.plain && f.rc == 0 && f.rd == 0 && vok f.ra) fun s1 x =>
    let a := vaddr x f
    match loadFault c a.toNat 256 64 with
    | some e => .raise e a
    | none =>
      let p := s1.loadBytes c t a.toNat 256
      p.1.retireV c t (p.1.thread c t) f.ra (vOfBytes p.2)

/-- VST: 256 B to the own slice (R112). -/
def execVst (c : CoreId) (t : ThreadId) (f : IFields) (s : State) : Host.Outcome State Fault Refusal :=
  s.decoded c t (1, 0x01) f <|
  s.vissue c t [f.rb] (f.plain && f.ra == 0 && f.rd == 0 && vok f.rc) fun s1 x =>
    let a := vaddr x f
    match s1.storeFault c a.toNat 256 64 with
    | some e => .raise e a
    | none => .done (s1.storeBytes c t a.toNat (VReg.toBytes (x.vreg f.rc.toNat))) x.next

/-- An M48 pair starts at an even register of at most 14 (R142, R144). -/
def pairOk (r : BitVec 5) : Bool := vok r && decide (r.toNat % 2 = 0)

/-- The two registers of an M48 pair from its elements (R142). -/
def ThreadSt.setPair (x : ThreadSt) (r : BitVec 5) (g : Nat → Nat) : ThreadSt :=
  (x.setV r.toNat (mkV 32 64 fun i => g i % 2 ^ 32)).setV (r.toNat + 1) (mkV 32 64 fun i => g i / 2 ^ 32 % 65536)

/-- Element `i` of the pair at `r`. -/
def ThreadSt.pairAt (x : ThreadSt) (r : BitVec 5) (i : Nat) : Nat := m48At (x.vreg r.toNat) (x.vreg (r.toNat + 1)) i

/-- VLD48: 64 M48 elements of 6 B each into a pair (R157). -/
def execVld48 (c : CoreId) (t : ThreadId) (f : IFields) (s : State) : Host.Outcome State Fault Refusal :=
  s.decoded c t (1, 0x02) f <|
  s.vissue c t [f.rb] (f.plain && f.rc == 0 && f.rd == 0 && pairOk f.ra) fun s1 x =>
    let a := vaddr x f
    match loadFault c a.toNat 384 64 with
    | some e => .raise e a
    | none =>
      let p := s1.loadBytes c t a.toNat 384
      let y := p.1.thread c t
      .done (p.1.setThread c t (y.setPair f.ra fun i => leAt p.2 (6 * i) 6)) y.next

/-- VST48: 64 M48 elements from the pair that RC names (R157). -/
def execVst48 (c : CoreId) (t : ThreadId) (f : IFields) (s : State) : Host.Outcome State Fault Refusal :=
  s.decoded c t (1, 0x03) f <|
  s.vissue c t [f.rb] (f.plain && f.ra == 0 && f.rd == 0 && pairOk f.rc) fun s1 x =>
    let a := vaddr x f
    match s1.storeFault c a.toNat 384 64 with
    | some e => .raise e a
    | none => .done (s1.storeBytes c t a.toNat ((upto 64).flatMap fun i => leBytes 6 (x.pairAt f.rc i))) x.next

/-! ## Conversions (R146, R147) -/

/-- A format that carries a scale: SSI32 and the OFP8 formats (R146). -/
def scaled (c : Nat) : Bool := c == 3 || c == 4 || c == 8

/-- Elements that VCVT converts (R146). -/
def cvtCount (d q : Nat) : Nat :=
  let wide := fun c => c == 0 || c == 8 || c == 9
  if wide d || wide q then 64 else if elemBits d == 16 || elemBits q == 16 then 128 else 256

/-- Bytes of `n` elements of format `c` in one register; an M48 pair counts as a whole register (R142). -/
def cvtBytes (n c : Nat) : Nat := if c == 9 then 256 else n * elemBits c / 8

/-- The tag of s[RC]: bucket and index of lane 0 (R147). -/
def tagOf (v : DWord) : Nat × Nat := (field v 43 32, field v 31 0)

/-- Element code `i` of the source of VCVT. -/
def cvtSrc (x : ThreadSt) (f : IFields) (n i : Nat) : Nat :=
  if f.fmtS == 9 then x.pairAt f.rb i
  else
    let w := elemBits f.fmtS
    let o := if cvtBytes n f.fmtS < 256 then f.part * n else 0
    VReg.lane (x.vreg f.rb.toNat) w (o + i)

/-- The exact value of a source code with the scale of its side or its MX block scale (R36, R38, R40, R146). -/
def cvtVal (fmt code : Nat) (e : Int) (mx : DWord) (i : Nat) : FV :=
  if fmt == 8 then ssiV (sgn 32 code) e
  else if isMx fmt then mxV (ffmt fmt) code (field mx (8 * (i / 32) + 7) (8 * (i / 32)))
  else if scaled fmt then ((ffmt fmt).decode code).scale e
  else (ffmt fmt).decode code

/-- VCVT's use of RC and RD (R110, R146, R147). -/
def cvtUsesRd (f : IFields) : Bool := isMx f.fmtS || (scaled f.fmtS && scaled f.fmtD)

/-- VCVT (R46, R146, R147). -/
def execVcvt (c : CoreId) (t : ThreadId) (f : IFields) (s : State) : Host.Outcome State Fault Refusal :=
  s.decoded c t (1, 0x20) f <|
  let d := f.fmtD
  let q := f.fmtS
  let n := cvtCount d q
  let small := min (cvtBytes n d) (cvtBytes n q)
  let okD := arithFmt d || d == 8 || d == 9
  s.vissue c t ((if f.recBit then [f.rc] else []) ++ (if cvtUsesRd f then [f.rd] else []))
    (f.plain && !f.scb && f.mod == 0 && f.scaleOk && okD && decide (q ≤ 9) && decide ((f.part + 1) * small ≤ 256)
      && (if d == 9 then pairOk f.ra else vok f.ra) && (if q == 9 then pairOk f.rb else vok f.rb)
      && (f.recBit || f.rc == 0) && (cvtUsesRd f || f.rd == 0))
    fun s1 x =>
      let rdv := x.sreg f.rd
      let both := scaled d && scaled q
      let se : Int := if both then sgn 8 (field rdv 7 0) else if scaled q then f.scale else 0
      let tag := tagOf (x.sreg f.rc)
      if (both && decide (se < -126)) || (f.recBit && tag.1 == 4095) then .raise .illegal 0
      else
        let val := fun i => cvtVal q (cvtSrc x f n i) se rdv i
        let srcOf := fun i => if f.recBit then some (tag.1, (tag.2 + i) % 2 ^ 32) else none
        let outs := fun i => toSsi (val i) f.scale
        let code := fun i =>
          if d == 8 then code 32 (outs i).val
          else if scaled d then ((ffmt d).round ((val i).scale (-f.scale))).code
          else ((ffmt d).round (val i)).code
        let y :=
          if d == 9 then x.setPair f.ra code
          else
            let w := elemBits d
            let o := if cvtBytes n d < 256 then f.part * n else 0
            x.setV f.ra.toNat (VReg.patch (x.vreg f.ra.toNat) w o n code)
        let s2 := s1.setThread c t y
        let s3 :=
          if d == 8 then
            let s4 := s2.modCst c fun k => (upto n).foldl (fun k i => k.recSsi (outs i) (srcOf i)) k
            if f.recBit && (upto n).any (fun i => (outs i).spoiled) then s4.markSpoiled tag.1 else s4
          else if (upto n).any (fun i => (val i).nonfinite) then s2.modCst c fun k => { k with nf := true }
          else s2
        .done s3 x.next

/-- The two MX blocks of 64 binary32 lanes of v[RB] (R37, R144). -/
def mxBlocks (x : ThreadSt) (f : IFields) : (Nat × List Nat × Bool) × (Nat × List Nat × Bool) :=
  let v := fun o => (upto 32).map fun i => b32v (VReg.lane (x.vreg f.rb.toNat) 32 (o + i))
  (mxQuant (ffmt f.fmtD) (v 0), mxQuant (ffmt f.fmtD) (v 32))

/-- VQMX: element codes of two MX blocks in PART of v[RA] (R37, R144); a non-finite source sets NF (R147). -/
def execVqmx (c : CoreId) (t : ThreadId) (f : IFields) (s : State) : Host.Outcome State Fault Refusal :=
  s.decoded c t (1, 0x21) f <|
  let w := elemBits f.fmtD
  s.vissue c t []
    (f.plain && f.rc == 0 && f.rd == 0 && isMx f.fmtD && f.fmtS == 0 && f.im 21 14 == 0 && !f.scb && !f.recBit && f.mod == 0
      && decide ((f.part + 1) * (8 * w) ≤ 256) && vok f.ra && vok f.rb)
    fun s1 x =>
      let b := mxBlocks x f
      let codes := b.1.2.1 ++ b.2.2.1
      let s2 := s1.setThread c t (x.setV f.ra.toNat (VReg.patch (x.vreg f.ra.toNat) w (f.part * 64) 64 fun i => nth 0 codes i))
      .done (if b.1.2.2 || b.2.2.2 then s2.modCst c fun k => { k with nf := true } else s2) x.next

/-- VQSC: the two scale bytes that VQMX computes (R144). -/
def execVqsc (c : CoreId) (t : ThreadId) (f : IFields) (s : State) : Host.Outcome State Fault Refusal :=
  s.decoded c t (1, 0x22) f <|
  s.vissue c t [f.ra]
    (f.plain && f.rc == 0 && f.rd == 0 && isMx f.fmtD && f.im 25 0 == 0 && vok f.rb)
    fun s1 x =>
      let b := mxBlocks x f
      s1.retire c t x f.ra (BitVec.ofNat 64 (b.1.1 + b.2.1 * 256))

/-- VIADD: saturating SSI32 lanes; saturation records SPOILED without a source (R147). -/
def execViadd (c : CoreId) (t : ThreadId) (f : IFields) (s : State) : Host.Outcome State Fault Refusal :=
  s.decoded c t (1, 0x24) f <|
  s.vissue c t (rcRegs f)
    (f.plain && f.rd == 0 && f.im 29 14 == 0 && f.im 12 0 == 0 && vok f.ra && vok f.rb && rcOk f)
    fun s1 x =>
      let sum := fun i => sgn 32 (VReg.lane (x.vreg f.rb.toNat) 32 i) + sgn 32 (rcLane x f 32 i)
      let s2 := s1.setThread c t (x.setV f.ra.toNat (mkV 32 64 fun i => code 32 (clampI i32min i32max (sum i))))
      let sat := (upto 64).any fun i => decide (sum i < i32min) || decide (i32max < sum i)
      .done (if sat then s2.modCst c fun k => k.recSpoiled none else s2) x.next

/-- VTUNE: the tuning word of 64 SSI32 lanes (R150). -/
def execVtune (c : CoreId) (t : ThreadId) (f : IFields) (s : State) : Host.Outcome State Fault Refusal :=
  s.decoded c t (1, 0x25) f <|
  s.vissue c t [f.ra] (f.plain && f.rc == 0 && f.rd == 0 && f.imm == 0 && vok f.rb) fun s1 x =>
    s1.retire c t x f.ra (BitVec.ofNat 64 (tuneWord (VReg.toBytes (x.vreg f.rb.toNat))))

/-- VCHKNF: a mask of the non-finite lanes of PART; with REC every non-finite lane of the register is recorded as CNF
(R144, R147). -/
def execVchknf (c : CoreId) (t : ThreadId) (f : IFields) (s : State) : Host.Outcome State Fault Refusal :=
  s.decoded c t (1, 0x28) f <|
  let w := elemBits f.fmtS
  s.vissue c t ([f.ra] ++ if f.recBit then [f.rc] else [])
    (f.plain && f.rd == 0 && f.fmtD == 0 && arithFmt f.fmtS && f.im 21 14 == 0 && !f.scb && f.mod == 0
      && decide ((f.part + 1) * (64 * w) ≤ 2048) && vok f.rb && (f.recBit || f.rc == 0))
    fun s1 x =>
      let bad := fun i => ((ffmt f.fmtS).decode (VReg.lane (x.vreg f.rb.toNat) w i)).nonfinite
      let tag := tagOf (x.sreg f.rc)
      if f.recBit && tag.1 == 4095 then .raise .illegal 0
      else
        let s2 := if f.recBit then
            s1.modCst c fun k => (upto (2048 / w)).foldl
              (fun k i => if bad i then k.recCnf (some (tag.1, (tag.2 + i) % 2 ^ 32)) else k) k
          else s1
        s2.retire c t x f.ra (BitVec.ofNat 64 (((upto 64).map fun i =>
          if bad (64 * f.part + i) then 2 ^ i else 0).foldl (· + ·) 0))

/-- VCSR: the carrier status, then with CLEAR the flags, FLUSH and the sources clear (R149). -/
def execVcsr (c : CoreId) (t : ThreadId) (f : IFields) (s : State) : Host.Outcome State Fault Refusal :=
  s.decoded c t (1, 0x29) f <|
  s.vissue c t [f.ra] (f.plain && f.rb == 0 && f.rc == 0 && f.rd == 0 && f.im 29 1 == 0) fun s1 x =>
    let w := (s1.core c).vec.cst.word
    let s2 := if bit f.imm 0 then s1.modCst c fun _ => {} else s1
    s2.retire c t x f.ra w

/-! ## Row reductions (R155) -/

/-- The formats of a reduction's source (R155, R66). -/
def redFmt (c : Nat) : Bool := c == 0 || c == 1 || c == 2

/-- Number of registers named: MOD[8:5] + 1 (R144). -/
def IFields.nreg (f : IFields) : Nat := f.mod / 32 + 1

/-- Element `j` of the row held from register `r` (R66, R155), widened to a binary32 code. -/
def rowElem (x : ThreadSt) (fmt r j : Nat) : Nat :=
  let w := elemBits fmt
  let per := 2048 / w
  rb32 ((ffmt fmt).decode (VReg.lane (x.vreg (r + j / per)) w (j % per)))

/-- The rows of 64 lanes of a reduction, with the absent lanes left out (R66, R155). -/
def redRows (x : ThreadSt) (f : IFields) (val : Nat → Nat) : List (List (Option Nat)) :=
  let total := f.nreg * (2048 / elemBits f.fmtS)
  let cnt := field (x.sreg f.rc) 31 0
  (upto (total / 64)).map fun q => (upto 64).map fun i => let j := 64 * q + i; if j < cnt then some (val j) else none

/-- A row reduction: its result in every binary32 lane of v[RA] (R155). -/
def reduceOp (c : CoreId) (t : ThreadId) (f : IFields) (usesRd : Bool) (val : ThreadSt → Nat → Nat)
    (op : Nat → Nat → Nat) (empty : Nat) (s : State) : Host.Outcome State Fault Refusal :=
  s.vissue c t [f.rc]
    (f.plain && redFmt f.fmtS && f.fmtD == 0 && f.im 21 9 == 0 && f.im 4 0 == 0 && vok f.ra
      && decide (f.rb.toNat + f.nreg ≤ 16) && (if usesRd then decide (f.rd.toNat + f.nreg ≤ 16) else f.rd == 0))
    fun s1 x =>
      let r := (rowFold op none (redRows x f (val x))).getD empty
      s1.retireV c t x f.ra (mkV 32 64 fun _ => r)

/-- VRSUM (R155). -/
def execVrsum (c : CoreId) (t : ThreadId) (f : IFields) (s : State) : Host.Outcome State Fault Refusal :=
  s.decoded c t (1, 0x30) f <|
  reduceOp c t f false (fun x j => rowElem x f.fmtS f.rb.toNat j) b32Add 0 s

/-- VRDOT: the lane value is the product rounded once (R66, R155). -/
def execVrdot (c : CoreId) (t : ThreadId) (f : IFields) (s : State) : Host.Outcome State Fault Refusal :=
  s.decoded c t (1, 0x31) f <|
  reduceOp c t f true (fun x j =>
    rb32 (FV.mul (b32v (rowElem x f.fmtS f.rb.toNat j)) (b32v (rowElem x f.fmtS f.rd.toNat j)))) b32Add 0 s

/-- VRMAX (R155). -/
def execVrmax (c : CoreId) (t : ThreadId) (f : IFields) (s : State) : Host.Outcome State Fault Refusal :=
  s.decoded c t (1, 0x32) f <|
  reduceOp c t f false (fun x j => rowElem x f.fmtS f.rb.toNat j) b32Max fB32.nanCode s

/-- VRAMAX: the lane value is the absolute value (R155). -/
def execVramax (c : CoreId) (t : ThreadId) (f : IFields) (s : State) : Host.Outcome State Fault Refusal :=
  s.decoded c t (1, 0x33) f <|
  reduceOp c t f false (fun x j => rb32 (b32v (rowElem x f.fmtS f.rb.toNat j)).abs) b32Max fB32.nanCode s

/-! ## Norm partials (R159) -/

/-- VNORM64: rounded scaled squares added to the int64 in s[RA], saturating; a non-finite lane records CNF (R159). -/
def execVnorm64 (c : CoreId) (t : ThreadId) (f : IFields) (s : State) : Host.Outcome State Fault Refusal :=
  s.decoded c t (1, 0x41) f <|
  let m48 := f.fmtS == 9
  s.vissue c t [f.ra, f.rc]
    (f.plain && f.rd == 0 && f.fmtD == 0 && (m48 || f.fmtS == 0) && f.scaleOk && f.im 13 0 == 0
      && (if m48 then pairOk f.rb else vok f.rb))
    fun s1 x =>
      let cnt := min 64 (field (x.sreg f.rc) 31 0)
      let val := fun i => if m48 then fM48.decode (x.pairAt f.rb i) else b32v (VReg.lane (x.vreg f.rb.toNat) 32 i)
      let term := fun i => if (val i).nonfinite then 0 else (Dy.mul (val i).dy (val i).dy).rne f.scale
      let sum := (upto cnt).foldl (fun (acc : Int) i => acc + term i) (x.sreg f.ra).toInt
      let top : Int := 2 ^ 63 - 1
      let s2 := s1.setThread c t (x.setS f.ra (BitVec.ofInt 64 (if top < sum then top else sum)))
      let s3 := if (upto cnt).any (fun i => (val i).nonfinite) then s2.modCst c fun k => k.recCnf none else s2
      .done (if top < sum then s3.modCst c fun k => k.recSpoiled none else s3) x.next

end Sys2Proof.Machine
end

