-- ==== Sys2Proof/Machine/Tables.lean ====
section
/-! DEFINITION. Function tables (R151 to R154) and the stochastic rounding of the parameter update (R158, R250, R251). -/

namespace Sys2Proof.Machine

/-! ## Tables -/

/-- A binary32 field of a table. -/
def tbF (tb : List Byte) (o : Nat) : FV := b32v (leAt tb o 4)

/-- W or EBASE of the header (R151). -/
def tbW (tb : List Byte) : Int := sgn 8 (leAt tb 2 1)

/-- Whether a header is valid (R151, R154): MODE and FLAGS defined, W_EB in range, XLO not above XHI. -/
def tbValid (tb : List Byte) : Bool :=
  let m := leAt tb 0 1
  let w := tbW tb
  decide (m ≤ 1) && decide (leAt tb 1 1 ≤ 1) && decide (-126 ≤ w) && (m == 0 || decide (w ≤ 111))
    && !(FV.lt (tbF tb 0x0C) (tbF tb 0x08))

/-- Segment and its start in uniform mode (R152). -/
def segUniform (tb : List Byte) (x : FV) : Nat × FV :=
  let x0 := tbF tb 4
  let w := tbW tb
  let seg : Nat :=
    match FV.add x x0.neg with
    | .nan => 0
    | .inf n => if n then 0 else 255
    | d => let q := d.dy.floor w; if q < 0 then 0 else if 255 < q then 255 else q.toNat
  (seg, FV.add x0 (Dy.fv ⟨seg, w⟩))

/-- Segment and its start in exponent mode (R152). -/
def segExponent (tb : List Byte) (x : FV) : Nat × FV :=
  let sg := x.sign
  let eb := tbW tb
  let mk := fun (ep f : Nat) => (128 * b2n sg + 8 * ep + f, FV.num sg (8 + f) (eb + ep - 3))
  match x with
  | .num _ m e =>
    let ep := flog2 m e - eb
    if m = 0 ∨ ep ≤ 0 then (128 * b2n sg, .num false 0 0)
    else if 15 < ep then mk 15 7
    else mk ep.toNat (truncSh m (3 - (Nat.log2 m : Int)) - 8)
  | _ => mk 15 7

/-- Table evaluation of one lane, rounded once to `out` (R152). -/
def lut (tb : List Byte) (out : FFmt) (x : FV) : Nat :=
  match x with
  | .nan => out.nanCode
  | .inf true => (out.round (tbF tb 0x10)).code
  | .inf false => (out.round (tbF tb 0x14)).code
  | _ =>
    let lo := tbF tb 0x08
    let hi := tbF tb 0x0C
    let y := if leAt tb 1 1 % 2 = 1 then (let z := if FV.lt x lo then lo else x; if FV.lt hi z then hi else z) else x
    let p := if leAt tb 0 1 = 0 then segUniform tb y else segExponent tb y
    let c := fun i => tbF tb (0x20 + 16 * p.1 + 4 * i)
    let t := b32v (rb32 (FV.add y p.2.neg))
    let h := b32v (rb32 (FV.add (FV.mul (c 3) t) (c 2)))
    let h2 := b32v (rb32 (FV.add (FV.mul h t) (c 1)))
    (out.round (FV.add (FV.mul h2 t) (c 0))).code

/-- A load to `slot` by thread `t` is in progress. -/
def VecSt.loadingBy (v : VecSt) (slot t : Nat) : Bool := v.loads.any fun l => l.slot == slot && l.thr == t

/-- The lanes that a table instruction writes: `n` lanes of FMT_D, in PART where FMT_D is the narrower (R142, R146). -/
def lutWrite (x : ThreadSt) (f : IFields) (n : Nat) (g : Nat → Nat) : VReg :=
  let o := if cvtBytes n f.fmtD < 256 then f.part * n else 0
  VReg.patch (x.vreg f.ra.toNat) (elemBits f.fmtD) o n g

/-- The IMM fields of a table instruction (R110, R144). -/
def lutFields (f : IFields) : Bool :=
  let n := cvtCount f.fmtD f.fmtS
  arithFmt f.fmtS && arithFmt f.fmtD && f.im 21 14 == 0 && !f.recBit
    && decide ((f.part + 1) * min (cvtBytes n f.fmtD) (cvtBytes n f.fmtS) ≤ 256)

/-- VLUT: table evaluation; it waits for its own thread's load of the slot, and an invalid slot is refused (R152, R154). -/
def execVlut (c : CoreId) (t : ThreadId) (f : IFields) (s : State) : Host.Outcome State Fault Refusal :=
  s.decoded c t (1, 0x38) f <|
  let n := cvtCount f.fmtD f.fmtS
  let slot := f.mod % 16
  s.vissue c t []
    (f.plain && f.rc == 0 && f.rd == 0 && lutFields f && !f.scb && decide (f.mod < 16) && vok f.ra && vok f.rb)
    fun s1 x =>
      let v := (s1.core c).vec
      if v.loadingBy slot t then .wait
      else if !(bit v.valid slot) then .raise .illegal 0
      else
        s1.retireV c t x f.ra (lutWrite x f n fun i =>
          lut (mapGet [] v.tables slot) (ffmt f.fmtD) ((ffmt f.fmtS).decode (cvtSrc x f n i)))

/-- VLUTG: the derivative table at the saved input times the upstream gradient, one rounding (R153). -/
def execVlutg (c : CoreId) (t : ThreadId) (f : IFields) (s : State) : Host.Outcome State Fault Refusal :=
  s.decoded c t (1, 0x39) f <|
  let n := cvtCount f.fmtD f.fmtS
  let slot := 2 * (f.mod % 8) + 1
  s.vissue c t (rcRegs f)
    (f.plain && f.rd == 0 && lutFields f && decide (f.mod < 8) && vok f.ra && vok f.rb && rcOk f)
    fun s1 x =>
      let v := (s1.core c).vec
      if v.loadingBy slot t then .wait
      else if !(bit v.valid slot) then .raise .illegal 0
      else
        let o := if cvtBytes n f.fmtS < 256 then f.part * n else 0
        s1.retireV c t x f.ra (lutWrite x f n fun i =>
          let d := b32v (lut (mapGet [] v.tables slot) fB32 ((ffmt f.fmtS).decode (cvtSrc x f n i)))
          let g := (ffmt f.fmtS).decode (rcLane x f (elemBits f.fmtS) (o + i))
          ((ffmt f.fmtD).round (FV.mul g d)).code)

/-- VLUTLD: starts the load of a table of 4128 B of the own slice outside the program region (R154). -/
def execVlutld (c : CoreId) (t : ThreadId) (f : IFields) (s : State) : Host.Outcome State Fault Refusal :=
  s.decoded c t (1, 0x3A) f <|
  s.vissue c t [f.rb]
    (f.plain && f.ra == 0 && f.rc == 0 && f.rd == 0 && f.im 29 4 == 0) fun s1 x =>
      let a := x.sreg f.rb
      match s1.storeFault c a.toNat 4128 64 with
      | some e => .raise e a
      | none =>
        .done (s1.modCore c fun k => { k with vec := { k.vec with loads := k.vec.loads ++ [⟨f.mod % 16, t, a.toNat⟩] } }) x.next

/-- VLUTLD_DONE: the first load to the slot completes; an invalid header leaves the slot invalid, sets the step-fault
bit and posts an ERROR event (R154). -/
def execVlutldDone (c : CoreId) (slot : SlotId) (s : State) : Host.Outcome State Fault Refusal :=
  let k := s.core c
  match takeFirst (fun (l : LutLoad) => l.slot == slot.val) k.vec.loads with
  | none => .next s
  | some (l, rest) =>
    let p := (s.setCore c { k with vec := { k.vec with loads := rest } }).loadBytes c l.thr l.addr 4128
    let m := BitVec.ofNat 16 (2 ^ slot.val)
    if tbValid p.2 then
      .next (p.1.modCore c fun k =>
        { k with vec := { k.vec with tables := mapSet [] k.vec.tables slot p.2, valid := k.vec.valid ||| m } })
    else
      let s2 := p.1.modCore c fun k => { k with vec := { k.vec with valid := k.vec.valid &&& ~~~m } }
      .next ((s2.stepFault c 8 l.thr 0).post (halfOf c) 0x20 c .error 5 (leBytes 1 slot))

/-! ## The 48-bit update (R158, R250, R251) -/

/-- The rosin generator, version 1 (R251). -/
def rosin (seed t : DWord) (grp idx : Nat) : Nat :=
  let x0 := seed ^^^ (t * 0xA3C59F1E6B27D4C9)
  let x1 := x0 ^^^ (BitVec.ofNat 64 (grp * 2 ^ 32 + idx % 2 ^ 32) * 0x58E1B3D24F96A0C7)
  let x2 := x1 ^^^ (x1 >>> 31)
  let x3 := x2 * 0xE7F35A19C84D2B63
  let x4 := x3 ^^^ (x3 >>> 29)
  let x5 := x4 * 0xB5A26C1D93E84F17
  let x6 := x5 ^^^ (x5 >>> 32)
  (x6 >>> 32).toNat

/-- Stochastic rounding of an exact finite sum to M48 with the random bits `r` (R250). -/
def srM48 (v : FV) (r : Nat) : Nat :=
  match v with
  | .num neg m x =>
    if m = 0 then (fM48.round (.num neg 0 0)).code
    else
      let u := max (flog2 m x) (-126) - 39
      let lo := truncSh m (x - u)
      let fr := truncSh m (x - u + 32) - lo * 2 ^ 32
      (fM48.round (.num neg (if r < fr then lo + 1 else lo) u)).code
  | w => (fM48.round w).code

/-- VSRADD: masters plus updates, rounded stochastically to M48; a non-finite operand or result sets UPD_NF and the
step-fault bit (R158, R250). -/
def execVsradd (c : CoreId) (t : ThreadId) (f : IFields) (s : State) : Host.Outcome State Fault Refusal :=
  s.decoded c t (1, 0x40) f <|
  s.vissue c t [f.rc, f.rd] (f.plain && f.imm == 0 && pairOk f.ra && vok f.rb) fun s1 x =>
    let grp := field (x.sreg f.rc) 9 0
    let idx := (x.sreg f.rd).toNat
    let w := fun i => fM48.decode (x.pairAt f.ra i)
    let u := fun i => b32v (VReg.lane (x.vreg f.rb.toNat) 32 i)
    let out := fun i => srM48 (FV.add (w i) (u i)) (rosin s1.img.jobSeed s1.step.committed grp (idx + i))
    let bad := (upto 64).any fun i => (w i).nonfinite || (u i).nonfinite || (fM48.decode (out i)).nonfinite
    let s2 := s1.setThread c t (x.setPair f.ra out)
    .done (if bad then (s2.modCst c fun k => { k with updNf := true }).stepFault c 9 t 0 else s2) x.next

end Sys2Proof.Machine
end

