-- ==== Sys2Proof/Machine/Dispatch.lean ====
section
/-! DEFINITION. One arm for each command of the table. -/

namespace Sys2Proof.Machine

/-- The effect of a command on everything but the queue. -/
def exec (i : Instr) (s : State) : Host.Outcome State Fault Refusal :=
  match i with
  | .regWrite r addr value => Sys2Proof.Machine.execRegWrite r addr value s
  | .regReadClear r addr => Sys2Proof.Machine.execRegReadClear r addr s
  | .arrDbgData0Read r c e => Sys2Proof.Machine.execArrDbgData0Read r c e s
  | .stepCommittedHiWrite r value => Sys2Proof.Machine.execStepCommittedHiWrite r value s
  | .timeAdjust r value => Sys2Proof.Machine.execTimeAdjust r value s
  | .traceRestart r value => Sys2Proof.Machine.execTraceRestart r value s
  | .threadStop r c t => Sys2Proof.Machine.execThreadStop r c t s
  | .threadResume r c t => Sys2Proof.Machine.execThreadResume r c t s
  | .gateEnable r => Sys2Proof.Machine.execGateEnable r s
  | .gateDisable r newWork => Sys2Proof.Machine.execGateDisable r newWork s
  | .stackEnable r j => Sys2Proof.Machine.execStackEnable r j s
  | .stackDisable r j => Sys2Proof.Machine.execStackDisable r j s
  | .fmStart r value => Sys2Proof.Machine.execFmStart r value s
  | .rteTblDataWrite r value => Sys2Proof.Machine.execRteTblDataWrite r value s
  | .rteAxisWrite r a value => Sys2Proof.Machine.execRteAxisWrite r a value s
  | .resolveCommit r => Sys2Proof.Machine.execResolveCommit r s
  | .resolveAbort r => Sys2Proof.Machine.execResolveAbort r s
  | .nop c t f => Sys2Proof.Machine.execNop c t f s
  | .add c t f => Sys2Proof.Machine.execAdd c t f s
  | .addi c t f => Sys2Proof.Machine.execAddi c t f s
  | .sub c t f => Sys2Proof.Machine.execSub c t f s
  | .and c t f => Sys2Proof.Machine.execAnd c t f s
  | .or c t f => Sys2Proof.Machine.execOr c t f s
  | .xor c t f => Sys2Proof.Machine.execXor c t f s
  | .shl c t f => Sys2Proof.Machine.execShl c t f s
  | .shr c t f => Sys2Proof.Machine.execShr c t f s
  | .sar c t f => Sys2Proof.Machine.execSar c t f s
  | .li c t f => Sys2Proof.Machine.execLi c t f s
  | .lsh c t f => Sys2Proof.Machine.execLsh c t f s
  | .mul c t f => Sys2Proof.Machine.execMul c t f s
  | .mulh c t f => Sys2Proof.Machine.execMulh c t f s
  | .divu c t f => Sys2Proof.Machine.execDivu c t f s
  | .remu c t f => Sys2Proof.Machine.execRemu c t f s
  | .slt c t f => Sys2Proof.Machine.execSlt c t f s
  | .sltu c t f => Sys2Proof.Machine.execSltu c t f s
  | .sel c t f => Sys2Proof.Machine.execSel c t f s
  | .ld8 c t f => Sys2Proof.Machine.execLd8 c t f s
  | .ld16 c t f => Sys2Proof.Machine.execLd16 c t f s
  | .ld32 c t f => Sys2Proof.Machine.execLd32 c t f s
  | .ld64 c t f => Sys2Proof.Machine.execLd64 c t f s
  | .st8 c t f => Sys2Proof.Machine.execSt8 c t f s
  | .st16 c t f => Sys2Proof.Machine.execSt16 c t f s
  | .st32 c t f => Sys2Proof.Machine.execSt32 c t f s
  | .st64 c t f => Sys2Proof.Machine.execSt64 c t f s
  | .beq c t f => Sys2Proof.Machine.execBeq c t f s
  | .bne c t f => Sys2Proof.Machine.execBne c t f s
  | .blt c t f => Sys2Proof.Machine.execBlt c t f s
  | .bge c t f => Sys2Proof.Machine.execBge c t f s
  | .bltu c t f => Sys2Proof.Machine.execBltu c t f s
  | .jal c t f => Sys2Proof.Machine.execJal c t f s
  | .jalr c t f => Sys2Proof.Machine.execJalr c t f s
  | .srd c t f => Sys2Proof.Machine.execSrd c t f s
  | .vld c t f => Sys2Proof.Machine.execVld c t f s
  | .vst c t f => Sys2Proof.Machine.execVst c t f s
  | .vld48 c t f => Sys2Proof.Machine.execVld48 c t f s
  | .vst48 c t f => Sys2Proof.Machine.execVst48 c t f s
  | .vadd c t f => Sys2Proof.Machine.execVadd c t f s
  | .vsub c t f => Sys2Proof.Machine.execVsub c t f s
  | .vmul c t f => Sys2Proof.Machine.execVmul c t f s
  | .vfma c t f => Sys2Proof.Machine.execVfma c t f s
  | .vmin c t f => Sys2Proof.Machine.execVmin c t f s
  | .vmax c t f => Sys2Proof.Machine.execVmax c t f s
  | .vabs c t f => Sys2Proof.Machine.execVabs c t f s
  | .vneg c t f => Sys2Proof.Machine.execVneg c t f s
  | .vdiv c t f => Sys2Proof.Machine.execVdiv c t f s
  | .vsqrt c t f => Sys2Proof.Machine.execVsqrt c t f s
  | .vcmp c t f => Sys2Proof.Machine.execVcmp c t f s
  | .vsel c t f => Sys2Proof.Machine.execVsel c t f s
  | .vmask c t f => Sys2Proof.Machine.execVmask c t f s
  | .vbcast c t f => Sys2Proof.Machine.execVbcast c t f s
  | .vmov c t f => Sys2Proof.Machine.execVmov c t f s
  | .vcvt c t f => Sys2Proof.Machine.execVcvt c t f s
  | .vqmx c t f => Sys2Proof.Machine.execVqmx c t f s
  | .vqsc c t f => Sys2Proof.Machine.execVqsc c t f s
  | .viadd c t f => Sys2Proof.Machine.execViadd c t f s
  | .vtune c t f => Sys2Proof.Machine.execVtune c t f s
  | .vchknf c t f => Sys2Proof.Machine.execVchknf c t f s
  | .vcsr c t f => Sys2Proof.Machine.execVcsr c t f s
  | .vrsum c t f => Sys2Proof.Machine.execVrsum c t f s
  | .vrdot c t f => Sys2Proof.Machine.execVrdot c t f s
  | .vrmax c t f => Sys2Proof.Machine.execVrmax c t f s
  | .vramax c t f => Sys2Proof.Machine.execVramax c t f s
  | .vlut c t f => Sys2Proof.Machine.execVlut c t f s
  | .vlutg c t f => Sys2Proof.Machine.execVlutg c t f s
  | .vlutld c t f => Sys2Proof.Machine.execVlutld c t f s
  | .vlutldDone c slot => Sys2Proof.Machine.execVlutldDone c slot s
  | .vsradd c t f => Sys2Proof.Machine.execVsradd c t f s
  | .vnorm64 c t f => Sys2Proof.Machine.execVnorm64 c t f s
  | .aload c t f => Sys2Proof.Machine.execAload c t f s
  | .aloadStart c p => Sys2Proof.Machine.execAloadStart c p s
  | .aloadDone c p => Sys2Proof.Machine.execAloadDone c p s
  | .astream c t f => Sys2Proof.Machine.execAstream c t f s
  | .streamScaleRead c p => Sys2Proof.Machine.execStreamScaleRead c p s
  | .astreamRowIssue c p u => Sys2Proof.Machine.execAstreamRowIssue c p u s
  | .astreamRowWrite c p e => Sys2Proof.Machine.execAstreamRowWrite c p e s
  | .adrain c t f => Sys2Proof.Machine.execAdrain c t f s
  | .adrainStart c p => Sys2Proof.Machine.execAdrainStart c p s
  | .drainOutputWrite c p e => Sys2Proof.Machine.execDrainOutputWrite c p e s
  | .amaxMerge c p => Sys2Proof.Machine.execAmaxMerge c p s
  | .aflag c t f => Sys2Proof.Machine.execAflag c t f s
  | .aflagDone c p => Sys2Proof.Machine.execAflagDone c p s
  | .aseed c t f => Sys2Proof.Machine.execAseed c t f s
  | .aseedStart c p => Sys2Proof.Machine.execAseedStart c p s
  | .aseedDone c p => Sys2Proof.Machine.execAseedDone c p s
  | .droneBeat c p => Sys2Proof.Machine.execDroneBeat c p s
  | .softStartLevelTimer c => Sys2Proof.Machine.execSoftStartLevelTimer c s
  | .droneMaxTimer c => Sys2Proof.Machine.execDroneMaxTimer c s
  | .rampDownLevelTimer c => Sys2Proof.Machine.execRampDownLevelTimer c s
  | .arrCoreFault c k => Sys2Proof.Machine.execArrCoreFault c k s
  | .move c t f => Sys2Proof.Machine.execMove c t f s
  | .moveStart c => Sys2Proof.Machine.execMoveStart c s
  | .moveComplete c slot => Sys2Proof.Machine.execMoveComplete c slot s
  | .wait c t f => Sys2Proof.Machine.execWait c t f s
  | .waitrc c t f => Sys2Proof.Machine.execWaitrc c t f s
  | .bar c t f => Sys2Proof.Machine.execBar c t f s
  | .gbar c t f => Sys2Proof.Machine.execGbar c t f s
  | .gbarRelease g => Sys2Proof.Machine.execGbarRelease g s
  | .tstart c t f => Sys2Proof.Machine.execTstart c t f s
  | .tend c t f => Sys2Proof.Machine.execTend c t f s
  | .stepflt c t f => Sys2Proof.Machine.execStepflt c t f s
  | .evnt c t f => Sys2Proof.Machine.execEvnt c t f s
  | .csig c t f => Sys2Proof.Machine.execCsig c t f s
  | .coreFaultState c u => Sys2Proof.Machine.execCoreFaultState c u s
  | .coreSelftestDone c coreOk arrOk => Sys2Proof.Machine.execCoreSelftestDone c coreOk arrOk s
  | .scChainBeat => Sys2Proof.Machine.execScChainBeat s
  | .scReturnBeat => Sys2Proof.Machine.execScReturnBeat s
  | .atomicAdd c slot => Sys2Proof.Machine.execAtomicAdd c slot s
  | .atomicMax c slot => Sys2Proof.Machine.execAtomicMax c slot s
  | .atomicOr c slot => Sys2Proof.Machine.execAtomicOr c slot s
  | .contribRx c slot => Sys2Proof.Machine.execContribRx c slot s
  | .bucketFull b => Sys2Proof.Machine.execBucketFull b s
  | .patrolScrub loc upset => Sys2Proof.Machine.execPatrolScrub loc upset s
  | .ceWindowEnd j => Sys2Proof.Machine.execCeWindowEnd j s
  | .stackTempChange j temp => Sys2Proof.Machine.execStackTempChange j temp s
  | .bridgeReplay => Sys2Proof.Machine.execBridgeReplay s
  | .bridgeTrainLoss => Sys2Proof.Machine.execBridgeTrainLoss s
  | .bridgeTrained => Sys2Proof.Machine.execBridgeTrained s
  | .heartbeatSend => Sys2Proof.Machine.execHeartbeatSend s
  | .heartbeatRx => Sys2Proof.Machine.execHeartbeatRx s
  | .echoRx => Sys2Proof.Machine.execEchoRx s
  | .hbTimeout h => Sys2Proof.Machine.execHbTimeout h s
  | .hbFirstTimeout h => Sys2Proof.Machine.execHbFirstTimeout h s
  | .forwardedCommand => Sys2Proof.Machine.execForwardedCommand s
  | .mirrorAck => Sys2Proof.Machine.execMirrorAck s
  | .mirrorTimeout => Sys2Proof.Machine.execMirrorTimeout s
  | .leaseExpire => Sys2Proof.Machine.execLeaseExpire s
  | .openStep => Sys2Proof.Machine.execOpenStep s
  | .micro => Sys2Proof.Machine.execMicro s
  | .mute => Sys2Proof.Machine.execMute s
  | .strum => Sys2Proof.Machine.execStrum s
  | .stepActionEnd => Sys2Proof.Machine.execStepActionEnd s
  | .muteVoteTimeout => Sys2Proof.Machine.execMuteVoteTimeout s
  | .strumVoteTimeout => Sys2Proof.Machine.execStrumVoteTimeout s
  | .commitActionEnd => Sys2Proof.Machine.execCommitActionEnd s
  | .rsRunStart a => Sys2Proof.Machine.execRsRunStart a s
  | .agRunStart a => Sys2Proof.Machine.execAgRunStart a s
  | .scRunStart => Sys2Proof.Machine.execScRunStart s
  | .entryTimeout q => Sys2Proof.Machine.execEntryTimeout q s
  | .drainTimeout => Sys2Proof.Machine.execDrainTimeout s
  | .packetInject h => Sys2Proof.Machine.execPacketInject h s
  | .packetRoute n => Sys2Proof.Machine.execPacketRoute n s
  | .packetAdvance n => Sys2Proof.Machine.execPacketAdvance n s
  | .putDataRx => Sys2Proof.Machine.execPutDataRx s
  | .getReqRx => Sys2Proof.Machine.execGetReqRx s
  | .getRespRx => Sys2Proof.Machine.execGetRespRx s
  | .ackRx => Sys2Proof.Machine.execAckRx s
  | .nackRx => Sys2Proof.Machine.execNackRx s
  | .notifyRx => Sys2Proof.Machine.execNotifyRx s
  | .chunkRx l => Sys2Proof.Machine.execChunkRx l s
  | .mcastRx l => Sys2Proof.Machine.execMcastRx l s
  | .mgmtRx l => Sys2Proof.Machine.execMgmtRx l s
  | .msgTimeout c slot => Sys2Proof.Machine.execMsgTimeout c slot s
  | .getRetryTimer c slot => Sys2Proof.Machine.execGetRetryTimer c slot s
  | .rateIncreaseTimer h dest => Sys2Proof.Machine.execRateIncreaseTimer h dest s
  | .fabricQuiesce hd => Sys2Proof.Machine.execFabricQuiesce hd s
  | .fabricResume hd => Sys2Proof.Machine.execFabricResume hd s
  | .linkGroupRx l ctl flits => Sys2Proof.Machine.execLinkGroupRx l ctl flits s
  | .linkGroupSend l => Sys2Proof.Machine.execLinkGroupSend l s
  | .linkAckTimer l => Sys2Proof.Machine.execLinkAckTimer l s
  | .laneFail l lane => Sys2Proof.Machine.execLaneFail l lane s
  | .shiftComplete l ok => Sys2Proof.Machine.execShiftComplete l ok s
  | .lowrateIdleExpire l => Sys2Proof.Machine.execLowrateIdleExpire l s
  | .trainLock l good => Sys2Proof.Machine.execTrainLock l good s
  | .trainLockTimeout l why => Sys2Proof.Machine.execTrainLockTimeout l why s
  | .trainRetryTimer l => Sys2Proof.Machine.execTrainRetryTimer l s
  | .identSendTimer l => Sys2Proof.Machine.execIdentSendTimer l s
  | .identRx l id => Sys2Proof.Machine.execIdentRx l id s
  | .verdictRx l reason version => Sys2Proof.Machine.execVerdictRx l reason version s
  | .identTimeout l => Sys2Proof.Machine.execIdentTimeout l s
  | .linkSignalLoss l => Sys2Proof.Machine.execLinkSignalLoss l s
  | .parkDrained l => Sys2Proof.Machine.execParkDrained l s
  | .parkNoticeRx l => Sys2Proof.Machine.execParkNoticeRx l s
  | .peerLanesActive l => Sys2Proof.Machine.execPeerLanesActive l s
  | .linkPark hd links => Sys2Proof.Machine.execLinkPark hd links s
  | .linkRejoin hd axes links => Sys2Proof.Machine.execLinkRejoin hd axes links s
  | .claim hd leaseS => Sys2Proof.Machine.execClaim hd leaseS s
  | .renew hd => Sys2Proof.Machine.execRenew hd s
  | .handover hd session => Sys2Proof.Machine.execHandover hd session s
  | .release hd => Sys2Proof.Machine.execRelease hd s
  | .recover hd sig cert signed => Sys2Proof.Machine.execRecover hd sig cert signed s
  | .loadImage hd addr len signed => Sys2Proof.Machine.execLoadImage hd addr len signed s
  | .start hd cores threads entry arg => Sys2Proof.Machine.execStart hd cores threads entry arg s
  | .halt hd cores => Sys2Proof.Machine.execHalt hd cores s
  | .resetCore hd target => Sys2Proof.Machine.execResetCore hd target s
  | .resetHalf hd target => Sys2Proof.Machine.execResetHalf hd target s
  | .resetLink hd target => Sys2Proof.Machine.execResetLink hd target s
  | .resetModuleWarm hd target => Sys2Proof.Machine.execResetModuleWarm hd target s
  | .halfResetEnd h => Sys2Proof.Machine.execHalfResetEnd h s
  | .setPowerStateRun hd => Sys2Proof.Machine.execSetPowerStateRun hd s
  | .setPowerStateIdle hd => Sys2Proof.Machine.execSetPowerStateIdle hd s
  | .setPowerStateRest hd => Sys2Proof.Machine.execSetPowerStateRest hd s
  | .functionStarted k => Sys2Proof.Machine.execFunctionStarted k s
  | .functionStartFailed k => Sys2Proof.Machine.execFunctionStartFailed k s
  | .functionStopped k => Sys2Proof.Machine.execFunctionStopped k s
  | .clockSelect hd source link fallback => Sys2Proof.Machine.execClockSelect hd source link fallback s
  | .fwUpdateBegin hd total => Sys2Proof.Machine.execFwUpdateBegin hd total s
  | .fwUpdateData hd off data => Sys2Proof.Machine.execFwUpdateData hd off data s
  | .fwUpdateCommit hd byFirmware byAnchor => Sys2Proof.Machine.execFwUpdateCommit hd byFirmware byAnchor s
  | .fwUpdateAbort hd => Sys2Proof.Machine.execFwUpdateAbort hd s
  | .debugEnable hd token signed => Sys2Proof.Machine.execDebugEnable hd token signed s
  | .debugDisable hd => Sys2Proof.Machine.execDebugDisable hd s
  | .debugExpire => Sys2Proof.Machine.execDebugExpire s
  | .writeReg hd pairs => Sys2Proof.Machine.execWriteReg hd pairs s
  | .writeMem hd addr data => Sys2Proof.Machine.execWriteMem hd addr data s
  | .qpCreate hd a => Sys2Proof.Machine.execQpCreate hd a s
  | .qpDestroy hd qpn => Sys2Proof.Machine.execQpDestroy hd qpn s
  | .mrReg hd addr len access => Sys2Proof.Machine.execMrReg hd addr len access s
  | .mrDereg hd rkey => Sys2Proof.Machine.execMrDereg hd rkey s
  | .readReg hd addr count => Sys2Proof.Machine.execReadReg hd addr count s
  | .readMem hd addr len => Sys2Proof.Machine.execReadMem hd addr len s
  | .status hd => Sys2Proof.Machine.execStatus hd s
  | .subscribe hd classes source => Sys2Proof.Machine.execSubscribe hd classes source s
  | .unsubscribe hd => Sys2Proof.Machine.execUnsubscribe hd s
  | .attest hd nonce draw => Sys2Proof.Machine.execAttest hd nonce draw s
  | .hello eth addr port data draw => Sys2Proof.Machine.execHello eth addr port data draw s
  | .key eth addr port data spki signed => Sys2Proof.Machine.execKey eth addr port data spki signed s
  | .command ip udp => Sys2Proof.Machine.execCommand ip udp s
  | .close f => Sys2Proof.Machine.execClose f s
  | .sessionSetupTimeout slot => Sys2Proof.Machine.execSessionSetupTimeout slot s
  | .sessionIdleTimeout slot => Sys2Proof.Machine.execSessionIdleTimeout slot s
  | .roceSend b pos data => Sys2Proof.Machine.execRoceSend b pos data s
  | .roceRdmaWrite b pos va rkey len data => Sys2Proof.Machine.execRoceRdmaWrite b pos va rkey len data s
  | .roceRdmaRead b va rkey len => Sys2Proof.Machine.execRoceRdmaRead b va rkey len s
  | .roceCnpRx b payload => Sys2Proof.Machine.execRoceCnpRx b payload s
  | .roceRateRecover qpn => Sys2Proof.Machine.execRoceRateRecover qpn s
  | .pauseFrameRx prio xoff => Sys2Proof.Machine.execPauseFrameRx prio xoff s
  | .arpFrame from_ target => Sys2Proof.Machine.execArpFrame from_ target s
  | .neighborDiscovery m => Sys2Proof.Machine.execNeighborDiscovery m s
  | .icmpEcho ip data => Sys2Proof.Machine.execIcmpEcho ip data s
  | .dhcpMessage m => Sys2Proof.Machine.execDhcpMessage m s
  | .hostPortTrained lanes => Sys2Proof.Machine.execHostPortTrained lanes s
  | .hostTrainTimeout lanes => Sys2Proof.Machine.execHostTrainTimeout lanes s
  | .hostLaneFail => Sys2Proof.Machine.execHostLaneFail s
  | .pwrEnRise => Sys2Proof.Machine.execPwrEnRise s
  | .pwrEnFall => Sys2Proof.Machine.execPwrEnFall s
  | .modResetNLow => Sys2Proof.Machine.execModResetNLow s
  | .resetRelease strap pkg0 pkg1 => Sys2Proof.Machine.execResetRelease strap pkg0 pkg1 s
  | .inputVoltageChange mv => Sys2Proof.Machine.execInputVoltageChange mv s
  | .standbyLoss mv => Sys2Proof.Machine.execStandbyLoss mv s
  | .trip causes => Sys2Proof.Machine.execTrip causes s
  | .powerWarnCheck watts => Sys2Proof.Machine.execPowerWarnCheck watts s
  | .dieTempWarn h temp => Sys2Proof.Machine.execDieTempWarn h temp s
  | .bootSlotCheck v => Sys2Proof.Machine.execBootSlotCheck v s
  | .coreFwLoad agree digest => Sys2Proof.Machine.execCoreFwLoad agree digest s
  | .startupComplete => Sys2Proof.Machine.execStartupComplete s
  | .xtalStable => Sys2Proof.Machine.execXtalStable s
  | .xtalTimeout => Sys2Proof.Machine.execXtalTimeout s
  | .sourceFail => Sys2Proof.Machine.execSourceFail s
  | .slewDone => Sys2Proof.Machine.execSlewDone s
  | .branchClockLoss b => Sys2Proof.Machine.execBranchClockLoss b s
  | .pllLockLoss h => Sys2Proof.Machine.execPllLockLoss h s
  | .fmDone count => Sys2Proof.Machine.execFmDone count s
  | .fmGateAbsent => Sys2Proof.Machine.execFmGateAbsent s
  | .recordAccept block inst => Sys2Proof.Machine.execRecordAccept block inst s
  | .coalesceWindowEnd block inst code => Sys2Proof.Machine.execCoalesceWindowEnd block inst code s
  | .gapTimer block inst => Sys2Proof.Machine.execGapTimer block inst s
  | .eventStreamSend slot => Sys2Proof.Machine.execEventStreamSend slot s
  | .telemetrySample => Sys2Proof.Machine.execTelemetrySample s
  | .entdaa a => Sys2Proof.Machine.execEntdaa a s
  | .setdasa a => Sys2Proof.Machine.execSetdasa a s
  | .rstdaa => Sys2Proof.Machine.execRstdaa s
  | .getpid => Sys2Proof.Machine.execGetpid s
  | .getbcr => Sys2Proof.Machine.execGetbcr s
  | .getdcr => Sys2Proof.Machine.execGetdcr s
  | .getstatus => Sys2Proof.Machine.execGetstatus s
  | .getmwl => Sys2Proof.Machine.execGetmwl s
  | .i3cPrivateWrite data => Sys2Proof.Machine.execI3cPrivateWrite data s
  | .i3cPrivateRead => Sys2Proof.Machine.execI3cPrivateRead s
  | .fetchProt c t => Sys2Proof.Machine.execFetchProt c t s
  | .sidebandTrained => Sys2Proof.Machine.execSidebandTrained s
  | .hostFrameDrop k => Sys2Proof.Machine.execHostFrameDrop k s
  | .referencePresenceChange k present => Sys2Proof.Machine.execReferencePresenceChange k present s

end Sys2Proof.Machine
end

