-- ==== Sys2Proof/WellFormed.lean ====
section
/-! DEFINITION. Which commands can reach the module at all: operands that no sender, link or frame can carry are ill-formed.
exec gives every command an effect all the same, so no meaning rests on this check; a statement may. -/

namespace Sys2Proof

open Sys2Proof.Machine

/-- The largest byte operand of a command: certificate, token, firmware or memory data (R359). -/
def maxData : Nat := 1024

/-- Control addresses whose write has a row of its own, outside the cores (R100, R237, R313, R409, R411, R414, R424, R447). -/
def ownRowAddrs : List Nat := [0xB001C, 0x3003C, 0x90024, 0x90010, 0x90014, 0x90018]

/-- The check of one command; a group has 8 flits (R261). -/
def wellFormed : Instr → Bool
  | .regWrite _ a _ => !(ownRowAddrs.contains a.toNat)
  | .regReadClear _ a => a.toNat % 4 == 0
  | .linkGroupRx _ _ l => l.length == 8
  | .recover _ _ cert _ => decide (cert.length ≤ maxData)
  | .fwUpdateData _ _ d => decide (d.length ≤ maxData)
  | .debugEnable _ t _ => decide (t.length ≤ maxData)
  | .writeReg _ ps => decide (0 < ps.length) && decide (ps.length ≤ 128)
  | .writeMem _ _ d => decide (0 < d.length) && decide (d.length ≤ maxData)
  | .hostTrainTimeout n => n != 0xFF
  | .trip cs => !cs.isEmpty
  | _ => true

/-- A command is well formed. -/
abbrev Instr.WellFormed (i : Instr) : Prop := wellFormed i = true

end Sys2Proof
end

