-- ==== Sys2Proof/Safety.lean ====
section
/-! DEFINITION. The words in which claims are made: the canonical form of memory, what a command may leave changed, when a
thread or a command may run, what it means that it completes. -/

namespace Sys2Proof.Safety

open Sys2Proof.Machine

/-! ## Memory -/

/-- Memory in its canonical form: keys rise strictly, and no listed byte is what an unlisted one reads as. -/
def memWf (m : Map Byte) : Bool := mapWf 0 m

/-! ## Off -/

/-- In Off nothing of start-up has begun, the Run function is OFF, no load is in progress and no command waits for the follower
(R422, R426, R435). -/
def OffRests (s : State) : Prop := s.pstate = .off → s.boot = {} ∧ s.pwr.run.st = .off ∧ s.ctl.fwd = none ∧ s.ctl.load = none

/-! ## Thread instructions -/

/-- CLASS and OP, core, thread and fields of a thread instruction (R109). -/
def threadOp : Instr → Option ((Nat × Nat) × CoreId × ThreadId × IFields)
  | .nop c t f => some ((0, 0x00), c, t, f)
  | .add c t f => some ((0, 0x01), c, t, f)
  | .addi c t f => some ((0, 0x02), c, t, f)
  | .sub c t f => some ((0, 0x03), c, t, f)
  | .and c t f => some ((0, 0x04), c, t, f)
  | .or c t f => some ((0, 0x05), c, t, f)
  | .xor c t f => some ((0, 0x06), c, t, f)
  | .shl c t f => some ((0, 0x07), c, t, f)
  | .shr c t f => some ((0, 0x08), c, t, f)
  | .sar c t f => some ((0, 0x09), c, t, f)
  | .li c t f => some ((0, 0x0A), c, t, f)
  | .lsh c t f => some ((0, 0x0B), c, t, f)
  | .mul c t f => some ((0, 0x0C), c, t, f)
  | .mulh c t f => some ((0, 0x0D), c, t, f)
  | .divu c t f => some ((0, 0x0E), c, t, f)
  | .remu c t f => some ((0, 0x0F), c, t, f)
  | .slt c t f => some ((0, 0x10), c, t, f)
  | .sltu c t f => some ((0, 0x11), c, t, f)
  | .sel c t f => some ((0, 0x12), c, t, f)
  | .ld8 c t f => some ((0, 0x20), c, t, f)
  | .ld16 c t f => some ((0, 0x21), c, t, f)
  | .ld32 c t f => some ((0, 0x22), c, t, f)
  | .ld64 c t f => some ((0, 0x23), c, t, f)
  | .st8 c t f => some ((0, 0x24), c, t, f)
  | .st16 c t f => some ((0, 0x25), c, t, f)
  | .st32 c t f => some ((0, 0x26), c, t, f)
  | .st64 c t f => some ((0, 0x27), c, t, f)
  | .beq c t f => some ((0, 0x30), c, t, f)
  | .bne c t f => some ((0, 0x31), c, t, f)
  | .blt c t f => some ((0, 0x32), c, t, f)
  | .bge c t f => some ((0, 0x33), c, t, f)
  | .bltu c t f => some ((0, 0x34), c, t, f)
  | .jal c t f => some ((0, 0x38), c, t, f)
  | .jalr c t f => some ((0, 0x39), c, t, f)
  | .srd c t f => some ((0, 0x3C), c, t, f)
  | .vld c t f => some ((1, 0x00), c, t, f)
  | .vst c t f => some ((1, 0x01), c, t, f)
  | .vld48 c t f => some ((1, 0x02), c, t, f)
  | .vst48 c t f => some ((1, 0x03), c, t, f)
  | .vadd c t f => some ((1, 0x08), c, t, f)
  | .vsub c t f => some ((1, 0x09), c, t, f)
  | .vmul c t f => some ((1, 0x0A), c, t, f)
  | .vfma c t f => some ((1, 0x0B), c, t, f)
  | .vmin c t f => some ((1, 0x0C), c, t, f)
  | .vmax c t f => some ((1, 0x0D), c, t, f)
  | .vabs c t f => some ((1, 0x0E), c, t, f)
  | .vneg c t f => some ((1, 0x0F), c, t, f)
  | .vdiv c t f => some ((1, 0x10), c, t, f)
  | .vsqrt c t f => some ((1, 0x11), c, t, f)
  | .vcmp c t f => some ((1, 0x14), c, t, f)
  | .vsel c t f => some ((1, 0x15), c, t, f)
  | .vmask c t f => some ((1, 0x16), c, t, f)
  | .vbcast c t f => some ((1, 0x17), c, t, f)
  | .vmov c t f => some ((1, 0x18), c, t, f)
  | .vcvt c t f => some ((1, 0x20), c, t, f)
  | .vqmx c t f => some ((1, 0x21), c, t, f)
  | .vqsc c t f => some ((1, 0x22), c, t, f)
  | .viadd c t f => some ((1, 0x24), c, t, f)
  | .vtune c t f => some ((1, 0x25), c, t, f)
  | .vchknf c t f => some ((1, 0x28), c, t, f)
  | .vcsr c t f => some ((1, 0x29), c, t, f)
  | .vrsum c t f => some ((1, 0x30), c, t, f)
  | .vrdot c t f => some ((1, 0x31), c, t, f)
  | .vrmax c t f => some ((1, 0x32), c, t, f)
  | .vramax c t f => some ((1, 0x33), c, t, f)
  | .vlut c t f => some ((1, 0x38), c, t, f)
  | .vlutg c t f => some ((1, 0x39), c, t, f)
  | .vlutld c t f => some ((1, 0x3A), c, t, f)
  | .vsradd c t f => some ((1, 0x40), c, t, f)
  | .vnorm64 c t f => some ((1, 0x41), c, t, f)
  | .aload c t f => some ((2, 0x01), c, t, f)
  | .astream c t f => some ((2, 0x02), c, t, f)
  | .adrain c t f => some ((2, 0x03), c, t, f)
  | .aflag c t f => some ((2, 0x04), c, t, f)
  | .aseed c t f => some ((2, 0x05), c, t, f)
  | .move c t f => some ((3, 0x00), c, t, f)
  | .wait c t f => some ((4, 0x00), c, t, f)
  | .waitrc c t f => some ((4, 0x01), c, t, f)
  | .bar c t f => some ((4, 0x02), c, t, f)
  | .gbar c t f => some ((4, 0x03), c, t, f)
  | .tstart c t f => some ((4, 0x04), c, t, f)
  | .tend c t f => some ((4, 0x05), c, t, f)
  | .stepflt c t f => some ((4, 0x06), c, t, f)
  | .evnt c t f => some ((4, 0x07), c, t, f)
  | .csig c t f => some ((4, 0x08), c, t, f)
  | _ => none

/-- A row of a thread instruction is the one that the word at its thread's PC spells (R106, R109). -/
def Fetches (i : Instr) (s : State) : Prop := ∀ op c t f, threadOp i = some (op, c, t, f) → s.spells c t op f = true

/-- Thread `t` of core `c` may issue an instruction that names the scalar registers `rs` (R105, R106, R108, R115). -/
def Ready (s : State) (c t : Nat) (rs : List (BitVec 5)) : Prop := s.canIssue c t = true ∧ (s.thread c t).free rs = true

/-- From `s` to `u` nothing but thread `t` of core `c` has changed, and that thread is `y`. -/
def OnlyThread (s u : State) (c t : Nat) (y : ThreadSt) : Prop :=
  u.thread c t = y ∧ (∀ j, j ≠ t → u.thread c j = s.thread c j) ∧ { u.core c with thr := (s.core c).thr } = s.core c
    ∧ (∀ d, d ≠ c → u.core d = s.core d) ∧ { u with cores := s.cores } = s

/-- Thread `t` of core `c` after the fetch of its word: its registers and PC are as before (R137). -/
def fetchedOf (s : State) (c t : Nat) : ThreadSt := (s.fetch c t).thread c t

/-- The command, where the thread fetches it, completes with a next state in which, from state `b`, only thread `t` of core `c` has
changed: by `g`. -/
def RetiresFrom (i : Instr) (s b : State) (c t : Nat) (g : ThreadSt → ThreadSt) : Prop :=
  Fetches i s → ∃ u, exec i s = .next u ∧ OnlyThread b u c t (g (b.thread c t))

/-- The instruction, where the thread fetches it, completes, and from the state after its fetch only its own thread has changed: by `g`. -/
def Retires (i : Instr) (s : State) (c t : Nat) (g : ThreadSt → ThreadSt) : Prop := RetiresFrom i s (s.fetch c t) c t g

/-- A scalar result in RA, and on to the next instruction (R106, R111). -/
def result (ra : BitVec 5) (v : DWord) (x : ThreadSt) : ThreadSt := { x.setS ra v with pc := x.pc + 8 }

/-- A vector result in v[RA], and on to the next instruction (R106, R112). -/
def vresult (ra : BitVec 5) (v : VReg) (x : ThreadSt) : ThreadSt := { x.setV ra.toNat v with pc := x.pc + 8 }

/-- The instruction, where the thread fetches it, completes, and from state `b` only its own thread has changed: v[RA] has lanes `g`
of `w` bits, and the thread goes on at the next instruction. -/
def LanesFrom (i : Instr) (s b : State) (c t : Nat) (ra : BitVec 5) (w : Nat) (g : ThreadSt → Nat → Nat) : Prop :=
  Fetches i s → ∃ u v, exec i s = .next u ∧ OnlyThread b u c t (vresult ra v (b.thread c t))
    ∧ ∀ j, j < 2048 / w → VReg.lane v w j = g (b.thread c t) j % 2 ^ w

/-- The same from the state after the fetch. -/
def Lanes (i : Instr) (s : State) (c t : Nat) (ra : BitVec 5) (w : Nat) (g : ThreadSt → Nat → Nat) : Prop :=
  LanesFrom i s (s.fetch c t) c t ra w g

/-- From `s` to `u` nothing has changed but thread `t` of core `c`, the carrier status and step-fault bit of that core, the local
spoil bitmaps, and events with their counters. -/
def VectorFrame (s u : State) (c t : Nat) : Prop :=
  (∀ j, j ≠ t → u.thread c j = s.thread c j)
    ∧ { u.core c with
        thr := (s.core c).thr, vec := { (u.core c).vec with cst := (s.core c).vec.cst }, stepFault := (s.core c).stepFault
        sfSource := (s.core c).sfSource, sfThread := (s.core c).sfThread, sfCode := (s.core c).sfCode } = s.core c
    ∧ (∀ d, d ≠ c → u.core d = s.core d)
    ∧ { u with
        cores := s.cores, step := { u.step with spoilAny := s.step.spoilAny, spoilSrc := s.step.spoilSrc }, ev := s.ev
        regs := s.regs } = s

/-! ## Commands of sessions -/

/-- Critical command `c` is at the front of the queue before the commands `r`, a row names it by head, opcode and arguments, and
nothing keeps it from being taken now (R360, R361). -/
def AtFront (s : State) (hd : Head) (op : Nat) (args : List Byte) (c : Cmd) (r : List Cmd) : Prop :=
  s.leadRuns = true ∧ s.ctlFree op = true ∧ s.ctl.cmdq = c :: r ∧ c.slot = hd.slot.val ∧ c.reqId = hd.reqId ∧ c.epoch = hd.epoch
    ∧ c.op = op ∧ c.args = args

/-- The same, and the module is not HELD and the command is its owner's with its epoch (R360, R369). -/
def Executes (s : State) (hd : Head) (op : Nat) (args : List Byte) (c : Cmd) (r : List Cmd) : Prop :=
  AtFront s hd op args c r ∧ s.isHeld = false ∧ s.ctl.own.owned = true ∧ s.ctl.own.sess = some c.slot ∧ s.ctl.own.sid = c.sid
    ∧ (s.sess c.slot).id = c.sid ∧ s.ctl.own.epoch = c.epoch

/-- `s` with the critical commands `r` left in the queue. -/
def left (s : State) (r : List Cmd) : State := { s with ctl := { s.ctl with cmdq := r } }

/-- A read or subscription `c` is the first of its kind among those that wait, which are then `r` (R361). -/
def Reads (s : State) (hd : Head) (op : Nat) (args : List Byte) (c : Cmd) (r : List Cmd) : Prop :=
  s.readsRun = true ∧ s.ctl.readq = c :: r ∧ c.slot = hd.slot.val ∧ c.reqId = hd.reqId ∧ c.epoch = hd.epoch ∧ c.op = op
    ∧ c.args = args

/-- `s` with the reads `r` left. -/
def unread (s : State) (r : List Cmd) : State := { s with ctl := { s.ctl with readq := r } }

/-- A change of the owner record is on its way to the follower, and nothing else has changed. -/
def mirrored (s : State) (p : MirrorPend) : State := { s with ctl := { s.ctl with pend := some p } }

/-- A frame of a class is at its priority and no longer than R342 allows, and its buffer has room for it (R344). -/
def Fits (s : State) (e : EthHead) (bulk : Bool) : Prop :=
  e.len.toNat ≤ 9216 ∧ e.prio (s.raw 0x70004) = s.classPrio bulk ∧ s.host.fill bulk + e.len.toNat ≤ bufSize bulk

/-- The frame stands in its buffer, and a pause frame has left where its fill asks for one (R344, R345). -/
def took (s : State) (e : EthHead) (bulk : Bool) : State :=
  let h := s.host
  State.watchBuf { s with host :=
    if bulk then { h with fillBulk := h.fillBulk + e.len.toNat } else { h with fillMgmt := h.fillMgmt + e.len.toNat } }

/-- Datagram `f` is an Aukor frame of a type, `x`, in its layout, at the Aukor port and with room for it (R350, R351). -/
def Arrives (s : State) (f : UdpIn) (type : Nat) (x : AukorIn) : Prop :=
  s.serves = true ∧ Fits s f.eth false ∧ f.port.toNat = s.img.aukorPort ∧ aukorParse f.data = some x ∧ x.h.type = type

/-- Session `i` is the open session of the owner, and the module serves it and is not HELD: its writes are carried out (R10). -/
def Owns (s : State) (i : SlotId) : Prop :=
  s.leadRuns = true ∧ (s.sess i).st = .open_ ∧ s.isHeld = false ∧ s.ctl.own.owned = true ∧ s.ctl.own.sess = some i.val
    ∧ s.ctl.own.sid = (s.sess i).id

/-- The write is carried out: the module becomes `b`, and the register `a` answers with a status. -/
def Writes (i : Instr) (s b : State) (a st : Nat) : Prop := exec i s = .next (b.emit (.regStatus (BitVec.ofNat 32 a) st))

end Sys2Proof.Safety
end

