-- ==== Sys2Proof/Certificates/Slice0/Obligations.lean ====
section
/-! DEFINITION. The statements about the model, for the provers: per family of commands what each one does and leaves unchanged and where it
completes, then what holds of the whole machine. -/

open Sys2Proof Sys2Proof.Machine Sys2Proof.Safety

/-! ## The machine as a whole -/

/-- The model's block form: a step is exec of the front command with the queue's rest; on an empty queue one nanosecond of TIME passes and
nothing else happens, but for the receive buffers of the host port, the power stage in Off and the end of an image load (the model's
choice, log 3). -/
def Obligations.StepRunsTheFront : Prop :=
  (∀ (s : State) (c : Instr) (r : List Instr), step { s with pending := c :: r } = exec c { s with pending := r })
  ∧ ∀ (s : State), s.pending = [] →
    (s.ctl.load = none → s.host.fillMgmt = 0 → s.host.fillBulk = 0 → s.pstate ≠ .off ∨ s.pwr.pwrEn = false ∨ s.pwr.inRange = false →
      step s = .next s.tick ∧ s.tick.now = s.now + 1 ∧ { s.tick with now := s.now, timeCount := s.timeCount } = s)
    ∧ (s.ctl.load = none → s.pstate ≠ .off → ∃ u, step s = .next u ∧ u.now = s.now + 1
      ∧ u.host.fillMgmt ≤ s.host.fillMgmt ∧ u.host.fillBulk ≤ s.host.fillBulk
      ∧ { u with now := s.now, timeCount := s.timeCount, freeCtr := s.freeCtr, host := s.host, ctl := s.ctl, regs := s.regs } = s)

/-- R25, R126, R165, R415, R433, R436: every command completes, whatever the state: the module itself never stops. What none of them
touches: the commands that wait, the count of TIME cycles on which timers run, and the fuses. -/
def Obligations.EveryCommandCompletes : Prop :=
  ∀ (i : Instr) (s : State), ∃ u, exec i s = .next u ∧ u.pending = s.pending ∧ u.now = s.now ∧ u.fuse = s.fuse

/-- R10, R426, R430, R436: what a module cold reset leaves: no owner, EPOCH 0, no image, an empty queue, threads IDLE with registers 0,
phase IDLE, links without training, the bypasses closed, the router QUIESCED, TIME 0, and the canonical memory that lists nothing. The
values of STATE that the manual gives no reset for are the model's (logs 5, 6). -/
def Obligations.ResetValues : Prop :=
  (
  let s := State.reset
  s.pending = [] ∧ s.timeCount = 0 ∧ s.ctl.own = {} ∧ s.ctl.own.owned = false ∧ s.ctl.own.epoch = 0 ∧ s.img = {} ∧ s.boot.released = false
    ∧ s.step.phase = .idle ∧ s.step.committed = 0 ∧ s.bypass = 7 ∧ s.rt.quiesced = true ∧ s.debugOn = false ∧ s.pstate = .run
    ∧ (∀ c t, (s.thread c t).st = .idle ∧ (s.thread c t).pc = 0 ∧ (∀ r, (s.thread c t).sreg r = 0) ∧ (∀ r, (s.thread c t).vreg r = 0)
        ∧ ∀ r, (s.thread c t).wait r = {})
    ∧ (∀ c, (s.core c).ready = false ∧ (s.core c).faultState = false) ∧ (∀ l, (s.link l).st = .off) ∧ (∀ i, (s.sess i).st = .free))
  ∧ (
  memWf State.reset.mem = true ∧ State.reset.mem = [])

/-- R165, R169, R173: every step keeps memory in its one canonical form: keys rise strictly and no listed byte is 0. -/
def Obligations.MemoryStaysCanonical : Prop :=
  ∀ (s u : State), memWf s.mem = true → step s = .next u → memWf u.mem = true

/-- R458: over every step the firmware versions in the fuses stay or rise, resets and loss of power included, and no other fuse changes. -/
def Obligations.FusesNeverFall : Prop :=
  ∀ (s u : State), step s = .next u → u.fuse = s.fuse ∧ s.sec.fuseM ≤ u.sec.fuseM ∧ s.sec.fuseC ≤ u.sec.fuseC

/-- R417, R422: the module enters Off only when PWR_EN falls, below 30 V of input, or by a trip. It leaves Off only as the power stage
starts, as TIME passes, with PWR_EN high and the input in its range for 10 ms and no trip that holds it; every function is then as a cold
reset leaves it, before the release. -/
def Obligations.OffIsEnteredAndLeft : Prop :=
  let leaves := fun (s u : State) =>
    u.pstate = .run ∧ u.pwr.pwrEn = true ∧ u.pwr.inRange = true ∧ u.pwr.inSince + 10000000 ≤ u.now ∧ u.pwr.tripped = false
      ∧ u.pwr.run.st = .on ∧ u.clk.gates = [] ∧ u.boot = {} ∧ u.mem = s.mem ∧ u.cores = s.cores
  (∀ (i : Instr) (s u : State), OffRests s → exec i s = .next u →
    OffRests u
    ∧ (s.pstate ≠ .off → u.pstate = .off → i = .pwrEnFall ∨ (∃ v, i = .standbyLoss v ∧ v.toNat < 30000) ∨ ∃ l, i = .trip l)
    ∧ (s.pstate = .off → u.pstate = .off))
  ∧ ∀ (s u : State), OffRests s → s.pending = [] → step s = .next u →
    OffRests u ∧ (s.pstate ≠ .off → u.pstate ≠ .off) ∧ (s.pstate = .off → u.pstate ≠ .off → leaves s u)

/-! ## Single rules -/

/-- R10: a register write of a session that is not the owner's is refused and changes nothing; a write or read where no block decodes ends
with an address error status and changes nothing. -/
def Obligations.RefusedAccesses : Prop :=
  ∀ (s : State) (i : SlotId) (a v : Word),
    (s.leadRuns = true → (s.sess i).st = .open_ → s.isOwner i = false →
      ∃ st, st ≠ 0 ∧ Writes (.regWrite (.sess i) a v) s s a.toNat st)
    ∧ (Owns s i → decodeReg a.toNat = none → Writes (.regWrite (.sess i) a v) s s a.toNat 8)
    ∧ (∀ own clear e, decodeReg a.toNat = none → s.readReg own clear e a.toNat = (s, 8, 0))

/-- R128: the 16 receive counters of a core hold 32 bits: increments add up, one that would pass the largest value stays there and sets the
core's step-fault bit. -/
def Obligations.ReceiveCounters : Prop :=
  ∀ (s : State) (c : CoreId) (n : Fin 16) (d : Nat),
    let v := mapGet 0 (s.core c).rc n
    let u := s.addRc c n d
    v < 2 ^ 32 →
      (v + d < 2 ^ 32 → mapGet 0 (u.core c).rc n = v + d ∧ (u.core c).stepFault = (s.core c).stepFault)
      ∧ (2 ^ 32 ≤ v + d → mapGet 0 (u.core c).rc n = 0xFFFFFFFF ∧ (u.core c).stepFault = true)
      ∧ (∀ j, j ≠ n.val → mapGet 0 (u.core c).rc j = mapGet 0 (s.core c).rc j) ∧ (∀ k, k ≠ c.val → u.core k = s.core k)
      ∧ { u with cores := s.cores } = s

/-- R150: VTUNE writes to RA, zero-extended, the sum over i of (i + 1) times the signed 32-bit lane i, reduced modulo 65 521. -/
def Obligations.TuningWord : Prop :=
  ∀ (s : State) (c : CoreId) (t : ThreadId) (f : IFields),
    s.blockOn c 1 = true → f.plain = true → f.rc = 0 → f.rd = 0 → f.imm = 0 → Ready s c t [f.ra] → vok f.rb = true →
    let x := fun (i : Nat) => sgn 32 (VReg.lane ((s.thread c t).vreg f.rb.toNat) 32 i)
    let word := ((upto 64).map fun (i : Nat) => ((i : Int) + 1) * x i).sum % 65521
    0 ≤ word ∧ word ≤ 65520 ∧ Retires (.vtune c t f) s c t (result f.ra (BitVec.ofNat 64 word.toNat))

/-- R169: the stack and the byte of an address in a DRAM region, by its policy; no two addresses of a region share a byte of a stack. -/
def Obligations.StackPlacement : Prop :=
  (
  ∀ (r : Region) (x : Nat), r.policy ≤ 2 → (r.policy = 1 → r.target ≤ 1) → r.lo ≤ x →
    let g := (x - r.lo) / 4096
    let byte := r.offset * 2 ^ 28 + g / r.w * 4096 + (x - r.lo) % 4096
    (r.policy = 0 → r.w = 12 ∧ some (r.place x).1 = [0, 6, 1, 7, 2, 8, 3, 9, 4, 10, 5, 11][g % 12]? ∧ (r.place x).2 = byte)
    ∧ (r.policy = 1 → r.w = 6
        ∧ some (r.place x).1 = (if r.target = 0 then [0, 1, 2, 3, 4, 5] else [6, 7, 8, 9, 10, 11])[g % 6]? ∧ (r.place x).2 = byte)
    ∧ (r.policy = 2 → r.w = 1 ∧ (r.place x).1 = r.target ∧ (r.place x).2 = byte))
  ∧ (
  ∀ (r : Region) (x y : Nat), r.policy ≤ 2 → r.lo ≤ x → r.lo ≤ y → r.place x = r.place y → x = y)

/-- R466: every module reset draws a new challenge, and so does every DEBUG_ENABLE with a token, accepted or refused; the value drawn is
free. A token is accepted only where it carries the challenge. -/
def Obligations.ChallengeDrawn : Prop :=
  ∀ (s : State),
    let new_ := fun (u : State) => ∃ n, s.freeCtr ≤ n ∧ n < u.freeCtr ∧ u.sec.chal = Config.freeChallenge n
    (∀ k, new_ (s.warmReset k)) ∧ new_ s.powerOff
    ∧ (∀ (hd : Head) (c : Cmd) (r : List Cmd) (t : List Byte) (sig : Option (List Byte)), Executes s hd opDebug (argsDebug 1 t) c r →
      ∃ u, exec (.debugEnable hd t sig) s = .next u ∧ new_ u)
    ∧ (∀ t : List Byte, s.tokenOk t = true → slice t 0x18 16 = beBytes 16 s.sec.chal.toNat)

/-- R313: a write to RTE_TBL_DATA or RTE_AXIS_a is refused, and changes nothing, unless the router is QUIESCED and drained; an accepted one
changes the staged copy and sets STAGED. -/
def Obligations.StagedTables : Prop :=
  ∀ (s : State) (i : SlotId), Owns s i →
    let q := Requester.sess i
    ∀ v : Word,
      let ok := s.rt.quiesced = true ∧ s.drained = true
      let n := field (s.raw 0x90020) 12 0
      (¬ok → Writes (.rteTblDataWrite q v) s s 0x90024 2 ∧ ∀ a : AxisId, Writes (.rteAxisWrite q a v) s s (0x90010 + 4 * a) 2)
      ∧ (ok → ∃ b : State, Writes (.rteTblDataWrite q v) s b 0x90024 0 ∧ b.rt.staged = true ∧ b.rt.tbl = s.rt.tbl
          ∧ mapGet 0xF b.rt.tblStaged n = BitVec.ofNat 16 (v.toNat % 16) ∧ field (b.raw 0x90020) 12 0 = (if n = 6143 then 0 else (n + 1) % 8192)
          ∧ ∀ j, j ≠ n → mapGet 0xF b.rt.tblStaged j = mapGet 0xF s.rt.tblStaged j)
      ∧ (ok → ∀ a : AxisId, Writes (.rteAxisWrite q a v) s
          { s with rt := { s.rt with dlStaged := s.rt.dlStaged.set a (field v 5 0), staged := true } } (0x90010 + 4 * a) 0)

/-- R18, R19, R26, R369: heartbeats and echoes; what their loss or a foreign epoch does. -/
def Obligations.Heartbeats : Prop :=
  (∀ (s : State), (s.half 0).lead = true → (s.half 0).up = true → (s.half 0).inReset = false → s.boot.leadState = 0 →
    (∀ t, s.side.sentAt = some t → t + 10000 ≤ s.now) →
    exec .heartbeatSend s = .next { s with side :=
      { s.side with hb := if s.bridge.sideUp then s.side.hb ++ [s.ctl.own.epoch] else s.side.hb, sentAt := some s.now } })
  ∧ (∀ (s : State) (e : Word) (r : List Word), s.side.hb = e :: r → s.bridge.sideUp = true → (s.half 1).up = true →
    (s.half 1).inReset = false →
    (e = s.ctl.mirror.epoch → ∃ u, exec .heartbeatRx s = .next u ∧ u.side = { s.side with hb := r, echo := s.side.echo + 1 }
      ∧ u.half 1 = { s.half 1 with armed := true, hbLost := false, lastHb := s.now } ∧ u.half 0 = s.half 0
      ∧ { u with side := s.side, halves := s.halves, regs := s.regs } = s)
    ∧ (e ≠ s.ctl.mirror.epoch → ∃ u, exec .heartbeatRx s = .next u ∧ (u.half 0).held = true ∧ (u.half 1).held = true))
  ∧ (∀ (s : State), 0 < s.side.echo → s.bridge.sideUp = true → (s.half 0).up = true → (s.half 0).inReset = false →
    ∃ u, exec .echoRx s = .next u ∧ u.side = { s.side with echo := s.side.echo - 1 }
      ∧ u.half 0 = { s.half 0 with armed := true, hbLost := false, lastHb := s.now } ∧ u.half 1 = s.half 1
      ∧ { u with side := s.side, halves := s.halves, regs := s.regs } = s)
  ∧ (∀ (s : State) (h : HalfId), (s.half h).up = true → (s.half h).inReset = false → (s.half h).hbLost = false →
    let lost := fun (i : Instr) => ∃ u, exec i s = .next u ∧ (u.half h).hbLost = true ∧ (u.half h).held = true
      ∧ u.ctl.causes.getLsbD 0 = true ∧ u.ctl.own.owned = s.ctl.own.owned ∧ u.ctl.own.epoch = s.ctl.own.epoch
    ((s.half h).armed = true → (s.half h).lastHb + 100000 ≤ s.now → lost (.hbTimeout h)))
  ∧ (∀ (s : State) (h : HalfId), s.boot.released = true → (s.half h).inReset = false → (s.half h).hbLost = false →
    (s.half h).armed = false → (s.half h).since + 250000000 ≤ s.now →
    ∃ u, exec (.hbFirstTimeout h) s = .next u ∧ (u.half h).hbLost = true ∧ (u.half h).held = true ∧ u.ctl.causes.getLsbD 0 = true
      ∧ u.ctl.own.owned = s.ctl.own.owned ∧ u.ctl.own.epoch = s.ctl.own.epoch)

/-! ## Scalar instructions and threads -/

/-- R111: RB and RC give RA its value in every two-operand form, the thread goes on at PC + 8, and nothing else changes after the fetch. RA
= s0 discards the result (R104). R111: NOP, the immediate forms, SEL and the special values of SRD. -/
def Obligations.ScalarResults : Prop :=
  (
  ∀ (s : State) (c : CoreId) (t : ThreadId) (f : IFields),
    Ready s c t [f.ra, f.rb, f.rc] → f.plain = true → f.rd = 0 → f.imm = 0 →
    let r := fun (g : DWord → DWord → DWord) (x : ThreadSt) => result f.ra (g (x.sreg f.rb) (x.sreg f.rc)) x
    Retires (.add c t f) s c t (r fun a b => a + b) ∧ Retires (.sub c t f) s c t (r fun a b => a - b)
      ∧ Retires (.and c t f) s c t (r fun a b => a &&& b) ∧ Retires (.or c t f) s c t (r fun a b => a ||| b)
      ∧ Retires (.xor c t f) s c t (r fun a b => a ^^^ b) ∧ Retires (.shl c t f) s c t (r fun a b => a <<< (b.toNat % 64))
      ∧ Retires (.shr c t f) s c t (r fun a b => a >>> (b.toNat % 64))
      ∧ Retires (.sar c t f) s c t (r fun a b => a.sshiftRight (b.toNat % 64))
      ∧ Retires (.mul c t f) s c t (r fun a b => a * b)
      ∧ Retires (.mulh c t f) s c t (r fun a b => BitVec.ofInt 64 (a.toInt * b.toInt / 2 ^ 64))
      ∧ Retires (.divu c t f) s c t (r fun a b => if b = 0 then BitVec.allOnes 64 else a / b)
      ∧ Retires (.remu c t f) s c t (r fun a b => if b = 0 then a else a % b)
      ∧ Retires (.slt c t f) s c t (r fun a b => if a.toInt < b.toInt then 1 else 0)
      ∧ Retires (.sltu c t f) s c t (r fun a b => if a.toNat < b.toNat then 1 else 0))
  ∧ (
  ∀ (s : State) (c : CoreId) (t : ThreadId) (f : IFields), f.plain = true →
    (Ready s c t [] → f.ra = 0 → f.rb = 0 → f.rc = 0 → f.rd = 0 → f.imm = 0 →
      Retires (.nop c t f) s c t fun x => { x with pc := x.pc + 8 })
    ∧ (Ready s c t [f.ra, f.rb] → f.rc = 0 → f.rd = 0 →
      Retires (.addi c t f) s c t (fun x => result f.ra (x.sreg f.rb + f.imm.signExtend 64) x)
        ∧ Retires (.lsh c t f) s c t fun x => result f.ra ((x.sreg f.rb <<< 30) + f.imm.setWidth 64) x)
    ∧ (Ready s c t [f.ra] → f.rb = 0 → f.rc = 0 → f.rd = 0 →
      Retires (.li c t f) s c t (result f.ra (f.imm.signExtend 64))
        ∧ (f.imm.toNat < 8 → Retires (.srd c t f) s c t (result f.ra
          (nth 0 [s.step.committed, s.step.attempt.setWidth 64, BitVec.ofNat 64 s.step.micro, s.timeCount, BitVec.ofNat 64 c,
            BitVec.ofNat 64 t, s.coordWord.setWidth 64, if s.debugOn then 1 else 0] f.imm.toNat))))
    ∧ (Ready s c t [f.ra, f.rb, f.rc, f.rd] → f.imm = 0 →
      Retires (.sel c t f) s c t fun x => result f.ra (if x.sreg f.rd ≠ 0 then x.sreg f.rb else x.sreg f.rc) x))

/-- R106 and R111: where a branch goes, what a jump links, where a JALR goes that meets no check. -/
def Obligations.BranchesAndJumps : Prop :=
  ∀ (s : State) (c : CoreId) (t : ThreadId) (f : IFields), f.plain = true → f.rd = 0 →
    (Ready s c t [f.rb, f.rc] → f.ra = 0 →
      let go := fun (p : DWord → DWord → Prop) [∀ a b, Decidable (p a b)] (x : ThreadSt) =>
        { x with pc := if p (x.sreg f.rb) (x.sreg f.rc) then x.pc + (f.imm.signExtend 64 <<< 3) else x.pc + 8 }
      Retires (.beq c t f) s c t (go fun a b => a = b) ∧ Retires (.bne c t f) s c t (go fun a b => a ≠ b)
        ∧ Retires (.blt c t f) s c t (go fun a b => a.toInt < b.toInt) ∧ Retires (.bge c t f) s c t (go fun a b => b.toInt ≤ a.toInt)
        ∧ Retires (.bltu c t f) s c t (go fun a b => a.toNat < b.toNat))
    ∧ (Ready s c t [f.ra] → f.rb = 0 → f.rc = 0 →
      Retires (.jal c t f) s c t fun x => { x.setS f.ra (x.pc + 8) with pc := x.pc + (f.imm.signExtend 64 <<< 3) })
    ∧ (Ready s c t [f.ra, f.rb] → f.rc = 0 →
      let a := (s.thread c t).sreg f.rb + (f.imm.signExtend 64 <<< 3)
      a.toNat % 8 = 0 → a.toNat < 2 ^ 26 → Retires (.jalr c t f) s c t fun x => { x.setS f.ra (x.pc + 8) with pc := a })

/-- R111, R136, R137: an aligned load from the own slice gives RA the bytes of memory, least significant first, zero-extended; memory
errors are treated as R182 and R137 say and change no register. R111, R185: an aligned store into the own slice outside the program region
writes the low bytes of RC there, least significant first, and changes no other byte of memory; bytes of a location with an error are left
to R185. -/
def Obligations.ScalarLoadsAndStores : Prop :=
  (
  ∀ (s : State) (c : CoreId) (t : ThreadId) (f : IFields),
    Ready s c t [f.ra, f.rb] → f.plain = true → f.rc = 0 → f.rd = 0 →
    let a := ((s.thread c t).sreg f.rb + f.imm.signExtend 64).toNat
    let loads := fun (i : Instr) (n : Nat) =>
      a % n = 0 → sliceBase c ≤ a → a + n ≤ sliceBase c + sliceSize →
      RetiresFrom i s ((s.fetch c t).loadBytes c t a n).1 c t (result f.ra (BitVec.ofNat 64 (leNat (s.bytes a n))))
    loads (.ld8 c t f) 1 ∧ loads (.ld16 c t f) 2 ∧ loads (.ld32 c t f) 4 ∧ loads (.ld64 c t f) 8)
  ∧ (
  ∀ (s : State) (c : CoreId) (t : ThreadId) (f : IFields),
    Ready s c t [f.rb, f.rc] → f.plain = true → f.ra = 0 → f.rd = 0 →
    let a := ((s.thread c t).sreg f.rb + f.imm.signExtend 64).toNat
    let stores := fun (i : Instr) (n : Nat) =>
      a % n = 0 → sliceBase c ≤ a → a + n ≤ sliceBase c + sliceSize → s.inProg c a n = false →
      Fetches i s → ∃ u, exec i s = .next u
        ∧ OnlyThread ((s.fetch c t).storeBytes c t a (leBytes n ((s.thread c t).sreg f.rc).toNat)) u c t
          { (s.fetch c t).thread c t with pc := (s.thread c t).pc + 8 }
        ∧ (∀ y, y < a ∨ a + n ≤ y → u.byte y = s.byte y)
        ∧ (s.ecc = [] → ∀ j, j < n → u.byte (a + j) = BitVec.ofNat 8 (((s.thread c t).sreg f.rc).toNat / 2 ^ (8 * j)))
    stores (.st8 c t f) 1 ∧ stores (.st16 c t f) 2 ∧ stores (.st32 c t f) 4 ∧ stores (.st64 c t f) 8)

/-- R136: the thread enters FAULTED with its cause, its registers and PC as they were; the step-fault bit is set; no other thread and no
byte of memory changes, and beside the threads only events and their counters do. -/
def Obligations.ThreadExceptionEffect : Prop :=
  ∀ (s : State) (c t : Nat) (e : Cause) (a : DWord),
    let u := s.exception c t e a
    u.thread c t = { s.thread c t with st := .faulted, cause := some e, excAddr := a }
      ∧ (∀ j, j ≠ t → u.thread c j = s.thread c j) ∧ (∀ d, d ≠ c → u.core d = s.core d)
      ∧ (u.core c).stepFault = true
      ∧ ((s.core c).stepFault = false → (u.core c).sfSource = 3 ∧ (u.core c).sfThread = t ∧ (u.core c).sfCode = e.code)
      ∧ { u with cores := s.cores, ev := s.ev, regs := s.regs } = s

/-- R106, R110, R111, R136: what raises an exception, and that the cause is the first of ILLEGAL, ALIGN, ADDR, PROT. R106: a thread that
would fetch outside its program region raises PROT with the PC as the offending address; no instruction of it is fetched. R109: the
fields of a word stand in the bits of the table; a reserved CLASS or OP raises ILLEGAL, and no row but the word's own has an effect. -/
def Obligations.ThreadExceptionCauses : Prop :=
  (
  ∀ (f : IFields) (op : Nat × Nat), op.1 < 8 → op.2 < 128 → wordOp (f.word op) = op ∧ wordFields (f.word op) = f
    ∧ (f.word op).toNat = op.1 * 2 ^ 61 + op.2 * 2 ^ 54 + f.ra.toNat * 2 ^ 49 + f.rb.toNat * 2 ^ 44 + f.rc.toNat * 2 ^ 39
        + f.rd.toNat * 2 ^ 34 + b2n f.wen * 2 ^ 33 + f.wctr.toNat * 2 ^ 30 + f.imm.toNat)
  ∧ (
  ∀ (s : State) (i : Instr) (op : Nat × Nat) (c : CoreId) (t : ThreadId) (f : IFields), threadOp i = some (op, c, t, f) →
    s.canIssue c t = true →
    let w := s.wordAt c t
    (opDefined (wordOp w) = false → exec i s = .next ((s.fetch c t).exception c t .illegal 0))
    ∧ (opDefined (wordOp w) = true → wordOp w ≠ op ∨ wordFields w ≠ f → exec i s = .next s))
  ∧ (
  ∀ (s : State) (c : CoreId) (t : ThreadId) (f : IFields),
    let raises := fun (i : Instr) (e : Cause) (a : DWord) => Fetches i s → exec i s = .next ((s.fetch c t).exception c t e a)
    let a := (s.thread c t).sreg f.rb + f.imm.signExtend 64
    let j := (s.thread c t).sreg f.rb + (f.imm.signExtend 64 <<< 3)
    let legal := f.plain = true ∧ f.rd = 0
    (Ready s c t [f.ra, f.rb, f.rc] → (f.plain = false ∨ f.rd ≠ 0 ∨ f.imm ≠ 0) → raises (.add c t f) .illegal 0)
    ∧ (Ready s c t [f.ra, f.rb] → legal → f.rc = 0 →
        (a.toNat % 8 ≠ 0 → raises (.ld64 c t f) .align a)
        ∧ (a.toNat % 8 = 0 → a.toNat < sliceBase c ∨ sliceBase c + sliceSize < a.toNat + 8 → raises (.ld64 c t f) .addr a)
        ∧ (j.toNat % 8 ≠ 0 → raises (.jalr c t f) .align j)
        ∧ (j.toNat % 8 = 0 → 2 ^ 26 ≤ j.toNat → raises (.jalr c t f) .prot j))
    ∧ (Ready s c t [f.rb, f.rc] → legal → f.ra = 0 →
        (a.toNat % 8 ≠ 0 → raises (.st64 c t f) .align a)
        ∧ (a.toNat % 8 = 0 → a.toNat < sliceBase c ∨ sliceBase c + sliceSize < a.toNat + 8 → raises (.st64 c t f) .addr a)
        ∧ (a.toNat % 8 = 0 → sliceBase c ≤ a.toNat → a.toNat + 8 ≤ sliceBase c + sliceSize → s.inProg c a.toNat 8 = true →
            raises (.st64 c t f) .prot a)))
  ∧ (
  ∀ (s : State) (c : CoreId) (t : ThreadId),
    s.running = true → s.blockOn c 2 = true → (s.core c).ready = true → (s.core c).faultState = false →
    (s.thread c t).st = .run → (s.thread c t).waitOn = .none → s.pcOk c (s.thread c t).pc = false →
    exec (.fetchProt c t) s = .next (s.exception c t .prot (s.thread c t).pc))

/-! ## Vector instructions -/

/-- R112, R145: lane by lane, VADD, VSUB, VMUL, VMIN, VMAX, VDIV, VFMA, VABS, VNEG and VSQRT give the exact result of the decoded operands
rounded once to FMT_D. R143 to R145, R149, R150: compares, selects, masks, broadcasts, copies and the carrier status of VCSR. -/
def Obligations.VectorLanes : Prop :=
  (
  ∀ (s : State) (c : CoreId) (t : ThreadId) (f : IFields),
    s.blockOn c 1 = true → f.plain = true → f.mod = 0 → noScalePartRec f = true → arithFmts f = true → vok f.ra = true →
    vok f.rb = true →
    let w := elemBits f.fmtS
    let dec := (ffmt f.fmtS).decode
    let rnd := fun (v : FV) => ((ffmt f.fmtD).round v).code
    let b := fun (x : ThreadSt) (i : Nat) => dec (VReg.lane (x.vreg f.rb.toNat) w i)
    let d := fun (x : ThreadSt) (i : Nat) => dec (VReg.lane (x.vreg f.rd.toNat) w i)
    let e := fun (x : ThreadSt) (i : Nat) => dec (rcLane x f w i)
    (Ready s c t (rcRegs f) → rcOk f = true →
      (f.rd = 0 →
        Lanes (.vadd c t f) s c t f.ra w (fun x i => rnd (FV.add (b x i) (e x i)))
          ∧ Lanes (.vsub c t f) s c t f.ra w (fun x i => rnd (FV.add (b x i) (e x i).neg))
          ∧ Lanes (.vmul c t f) s c t f.ra w (fun x i => rnd (FV.mul (b x i) (e x i)))
          ∧ Lanes (.vdiv c t f) s c t f.ra w (fun x i => rnd (FV.div (b x i) (e x i)))
          ∧ Lanes (.vmin c t f) s c t f.ra w (fun x i => rnd (fvMin (b x i) (e x i)))
          ∧ Lanes (.vmax c t f) s c t f.ra w (fun x i => rnd (fvMax (b x i) (e x i))))
      ∧ (vok f.rd = true →
        Lanes (.vfma c t f) s c t f.ra w (fun x i => rnd (FV.add (FV.mul (b x i) (e x i)) (d x i)))))
    ∧ (Ready s c t [] → f.rc = 0 → f.rd = 0 → f.scb = false →
      Lanes (.vabs c t f) s c t f.ra w (fun x i => rnd (b x i).abs)
        ∧ Lanes (.vneg c t f) s c t f.ra w (fun x i => rnd (b x i).neg)
        ∧ Lanes (.vsqrt c t f) s c t f.ra w (fun x i => rnd (b x i).sqrt)))
  ∧ (
  ∀ (s : State) (c : CoreId) (t : ThreadId) (f : IFields), s.blockOn c 1 = true → f.plain = true →
    let w := elemBits f.fmtS
    let b := fun (x : ThreadSt) (i : Nat) => VReg.lane (x.vreg f.rb.toNat) w i
    (Ready s c t (rcRegs f) → noScalePartRec f = true → vok f.ra = true → vok f.rb = true → rcOk f = true →
      (f.rd = 0 → f.mod ≤ 4 → arithFmt f.fmtS = true → f.fmtS = f.fmtD →
        Lanes (.vcmp c t f) s c t f.ra w (fun x i =>
          if cmpRel f.mod ((ffmt f.fmtS).decode (b x i)) ((ffmt f.fmtS).decode (rcLane x f w i)) then 2 ^ w - 1 else 0))
      ∧ (vok f.rd = true → f.fmtD = 0 → f.mod = 0 → f.fmtS < 9 →
        Lanes (.vsel c t f) s c t f.ra w (fun x i =>
          if VReg.lane (x.vreg f.rd.toNat) w i ≠ 0 then b x i else rcLane x f w i)))
    ∧ (f.rc = 0 → f.rd = 0 → f.imm = 0 →
      (Ready s c t [f.ra] → vok f.rb = true →
        ∃ m : DWord, (∀ i, i < 64 → m.getLsbD i = decide (VReg.lane ((s.thread c t).vreg f.rb.toNat) 32 i ≠ 0))
          ∧ Retires (.vmask c t f) s c t (result f.ra m))
      ∧ (Ready s c t [f.rb] → vok f.ra = true → Lanes (.vbcast c t f) s c t f.ra 32 (fun x _ => (x.sreg f.rb).toNat))
      ∧ (Ready s c t [] → vok f.ra = true → vok f.rb = true →
        Retires (.vmov c t f) s c t (fun x => vresult f.ra (x.vreg f.rb.toNat) x)))
    ∧ (Ready s c t [f.ra] → f.rb = 0 → f.rc = 0 → f.rd = 0 → f.im 29 1 = 0 →
      Fetches (.vcsr c t f) s → ∃ u, exec (.vcsr c t f) s = .next u
        ∧ u.thread c t = result f.ra (s.core c).vec.cst.word ((s.fetch c t).thread c t)
        ∧ (u.core c).vec.cst = (if bit f.imm 0 then {} else (s.core c).vec.cst) ∧ VectorFrame (s.fetch c t) u c t))

/-- R146, R147: VCVT, with its scale, PART and recording: what it writes of v[RA] is each source value under its scale, rounded once (or
clamped into SSI32); what it records is the carrier status of R147. R37, R144, R147, R159: the MX quantiser and its scale bytes, the
saturating SSI32 sum, the non-finite mask, the norm partial. -/
def Obligations.VectorConversions : Prop :=
  (
  ∀ (s : State) (c : CoreId) (t : ThreadId) (f : IFields),
    let d := f.fmtD
    let q := f.fmtS
    let n := cvtCount d q
    s.blockOn c 1 = true → f.plain = true → f.scb = false → f.mod = 0 → f.scaleOk = true →
    (arithFmt d = true ∨ d = 8 ∨ d = 9) → q ≤ 9 → (f.part + 1) * min (cvtBytes n d) (cvtBytes n q) ≤ 256 →
    (if d = 9 then pairOk f.ra = true else vok f.ra = true) → (if q = 9 then pairOk f.rb = true else vok f.rb = true) →
    (f.recBit = true ∨ f.rc = 0) → (cvtUsesRd f = true ∨ f.rd = 0) →
    Ready s c t ((if f.recBit then [f.rc] else []) ++ (if cvtUsesRd f then [f.rd] else [])) →
    let x := s.thread c t
    let both := scaled d && scaled q
    let se : Int := if both then sgn 8 (field (x.sreg f.rd) 7 0) else if scaled q then f.scale else 0
    (both = true → -126 ≤ se) → (f.recBit = true → (tagOf (x.sreg f.rc)).1 ≠ 4095) →
    let val := fun i => cvtVal q (cvtSrc x f n i) se (x.sreg f.rd) i
    let out := fun i => toSsi (val i) f.scale
    let res := fun i =>
      if d = 8 then code 32 (out i).val
      else if scaled d then ((ffmt d).round ((val i).scale (-f.scale))).code else ((ffmt d).round (val i)).code
    Fetches (.vcvt c t f) s → ∃ u, exec (.vcvt c t f) s = .next u ∧ VectorFrame (s.fetch c t) u c t
      ∧ (d ≠ 9 → ∀ j, j < n →
          VReg.lane ((u.thread c t).vreg f.ra.toNat) (elemBits d) ((if cvtBytes n d < 256 then f.part * n else 0) + j)
            = res j % 2 ^ elemBits d)
      ∧ (d = 9 → ∀ j, j < 64 → (u.thread c t).pairAt f.ra j = res j % 2 ^ 48)
      ∧ (∀ j, j ≠ f.ra.toNat → ¬(d = 9 ∧ j = f.ra.toNat + 1) → (u.thread c t).vreg j = x.vreg j)
      ∧ (u.thread c t).s = x.s ∧ (u.thread c t).pc = x.pc + 8
      ∧ (d = 8 → (u.core c).vec.cst = (upto n).foldl
          (fun k i => k.recSsi (out i) (if f.recBit then some ((tagOf (x.sreg f.rc)).1, ((tagOf (x.sreg f.rc)).2 + i) % 2 ^ 32) else none))
          (s.core c).vec.cst)
      ∧ (d ≠ 8 → ((u.core c).vec.cst.nf = ((s.core c).vec.cst.nf || (upto n).any fun i => (val i).nonfinite))))
  ∧ (
  ∀ (s : State) (c : CoreId) (t : ThreadId) (f : IFields), s.blockOn c 1 = true → f.plain = true →
    let x := s.thread c t
    let b := fetchedOf s c t
    let w := elemBits f.fmtD
    let q := elemBits f.fmtS
    let m := mxBlocks x f
    let bad := fun i => ((ffmt f.fmtS).decode (VReg.lane (x.vreg f.rb.toNat) q i)).nonfinite
    let tag := tagOf (x.sreg f.rc)
    let sum := fun i => sgn 32 (VReg.lane (x.vreg f.rb.toNat) 32 i) + sgn 32 (rcLane x f 32 i)
    (Ready s c t [] → f.rc = 0 → f.rd = 0 → isMx f.fmtD = true → f.fmtS = 0 → f.im 21 14 = 0 → f.scb = false → f.recBit = false →
      f.mod = 0 → (f.part + 1) * (8 * w) ≤ 256 → vok f.ra = true → vok f.rb = true →
      Fetches (.vqmx c t f) s → ∃ u v, exec (.vqmx c t f) s = .next u ∧ VectorFrame (s.fetch c t) u c t ∧ u.thread c t = vresult f.ra v b
        ∧ (∀ i, i < 64 → VReg.lane v w (f.part * 64 + i) = nth 0 (m.1.2.1 ++ m.2.2.1) i % 2 ^ w)
        ∧ (u.core c).vec.cst.nf = ((s.core c).vec.cst.nf || (m.1.2.2 || m.2.2.2)))
    ∧ (Ready s c t [f.ra] → f.rc = 0 → f.rd = 0 → isMx f.fmtD = true → f.im 25 0 = 0 → vok f.rb = true →
      Retires (.vqsc c t f) s c t (result f.ra (BitVec.ofNat 64 (m.1.1 + m.2.1 * 256))))
    ∧ (Ready s c t (rcRegs f) → f.rd = 0 → f.im 29 14 = 0 → f.im 12 0 = 0 → vok f.ra = true → vok f.rb = true → rcOk f = true →
      Fetches (.viadd c t f) s → ∃ u v, exec (.viadd c t f) s = .next u ∧ VectorFrame (s.fetch c t) u c t ∧ u.thread c t = vresult f.ra v b
        ∧ (∀ i, i < 64 → sgn 32 (VReg.lane v 32 i) = max (-2147483648) (min 2147483647 (sum i)))
        ∧ ((u.core c).vec.cst.spoiled
            = ((s.core c).vec.cst.spoiled || (upto 64).any fun i => decide (sum i < -2147483648) || decide (2147483647 < sum i))))
    ∧ (Ready s c t ([f.ra] ++ if f.recBit then [f.rc] else []) → f.rd = 0 → f.fmtD = 0 → arithFmt f.fmtS = true → f.im 21 14 = 0 →
      f.scb = false → f.mod = 0 → (f.part + 1) * (64 * q) ≤ 2048 → vok f.rb = true → (f.recBit = true ∨ f.rc = 0) →
      (f.recBit = true → tag.1 ≠ 4095) →
      Fetches (.vchknf c t f) s → ∃ (u : State) (r : DWord), exec (.vchknf c t f) s = .next u ∧ VectorFrame (s.fetch c t) u c t
        ∧ u.thread c t = result f.ra r b ∧ (∀ i, i < 64 → r.getLsbD i = bad (64 * f.part + i))
        ∧ ((u.core c).vec.cst.cnf = ((s.core c).vec.cst.cnf || (f.recBit && (upto (2048 / q)).any bad))))
    ∧ (Ready s c t [f.ra, f.rc] → f.rd = 0 → f.fmtD = 0 → (f.fmtS = 9 ∨ f.fmtS = 0) → f.scaleOk = true → f.im 13 0 = 0 →
      (if f.fmtS = 9 then pairOk f.rb = true else vok f.rb = true) →
      let val := fun i => if f.fmtS = 9 then fM48.decode (x.pairAt f.rb i) else b32v (VReg.lane (x.vreg f.rb.toNat) 32 i)
      let cnt := min 64 (field (x.sreg f.rc) 31 0)
      let total := (x.sreg f.ra).toInt
        + ((upto cnt).map fun i => if (val i).nonfinite then 0 else (Dy.mul (val i).dy (val i).dy).rne f.scale).sum
      Fetches (.vnorm64 c t f) s → ∃ u, exec (.vnorm64 c t f) s = .next u ∧ VectorFrame (s.fetch c t) u c t
        ∧ u.thread c t = result f.ra (BitVec.ofInt 64 (min total (2 ^ 63 - 1))) b
        ∧ (u.core c).vec.cst.cnf = ((s.core c).vec.cst.cnf || (upto cnt).any fun i => (val i).nonfinite)
        ∧ (u.core c).vec.cst.spoiled = ((s.core c).vec.cst.spoiled || decide (2 ^ 63 - 1 < total))))

/-- R66, R155: a row reduction over the named registers leaves its result in every binary32 lane of v[RA]. -/
def Obligations.VectorReductions : Prop :=
  ∀ (s : State) (c : CoreId) (t : ThreadId) (f : IFields),
    s.blockOn c 1 = true → f.plain = true → Ready s c t [f.rc] → redFmt f.fmtS = true → f.fmtD = 0 → f.im 21 9 = 0 →
    f.im 4 0 = 0 → vok f.ra = true → f.rb.toNat + f.nreg ≤ 16 →
    let el := fun (x : ThreadSt) (r : BitVec 5) (j : Nat) => rowElem x f.fmtS r.toNat j
    let fold := fun (op : Nat → Nat → Nat) (empty : Nat) (val : ThreadSt → Nat → Nat) (x : ThreadSt) (_ : Nat) =>
      (rowFold op none (redRows x f (val x))).getD empty
    (f.rd = 0 →
      Lanes (.vrsum c t f) s c t f.ra 32 (fold b32Add 0 fun x j => el x f.rb j)
        ∧ Lanes (.vrmax c t f) s c t f.ra 32 (fold b32Max fB32.nanCode fun x j => el x f.rb j)
        ∧ Lanes (.vramax c t f) s c t f.ra 32 (fold b32Max fB32.nanCode fun x j => rb32 (b32v (el x f.rb j)).abs))
    ∧ (f.rd.toNat + f.nreg ≤ 16 →
      Lanes (.vrdot c t f) s c t f.ra 32 (fold b32Add 0 fun x j => rb32 (FV.mul (b32v (el x f.rb j)) (b32v (el x f.rd j)))))

/-- R112, R157: vector loads and stores of 256 B and of 64 M48 elements in 384 B, from and to the own slice. R151 to R154, R158: table
loads and evaluations, and the stochastic update of 48-bit masters. -/
def Obligations.VectorMemoryAndTables : Prop :=
  (
  ∀ (s : State) (c : CoreId) (t : ThreadId) (f : IFields),
    s.blockOn c 1 = true → f.plain = true → f.rd = 0 → Ready s c t [f.rb] →
    let x := s.thread c t
    let a := (x.sreg f.rb + (f.imm.signExtend 64 <<< 6)).toNat
    let inside_ := fun (n : Nat) => a % 64 = 0 ∧ sliceBase c ≤ a ∧ a + n ≤ sliceBase c + sliceSize
    let stores := fun (i : Instr) (l : List Byte) =>
      Fetches i s → ∃ u, exec i s = .next u
        ∧ OnlyThread ((s.fetch c t).storeBytes c t a l) u c t { (s.fetch c t).thread c t with pc := x.pc + 8 }
        ∧ (∀ y, y < a ∨ a + l.length ≤ y → u.byte y = s.byte y) ∧ (s.ecc = [] → u.bytes a l.length = l)
    (f.rc = 0 → vok f.ra = true → inside_ 256 →
      RetiresFrom (.vld c t f) s ((s.fetch c t).loadBytes c t a 256).1 c t (vresult f.ra (vOfBytes (s.bytes a 256))))
    ∧ (f.rc = 0 → pairOk f.ra = true → inside_ 384 →
      Fetches (.vld48 c t f) s → ∃ u, exec (.vld48 c t f) s = .next u
        ∧ (∀ j, j < 64 → (u.thread c t).pairAt f.ra j = leNat (s.bytes (a + 6 * j) 6))
        ∧ (u.thread c t).s = x.s ∧ (u.thread c t).pc = x.pc + 8
        ∧ (∀ j, j ≠ f.ra.toNat → j ≠ f.ra.toNat + 1 → (u.thread c t).vreg j = x.vreg j) ∧ u.mem = s.mem)
    ∧ (f.ra = 0 → vok f.rc = true → inside_ 256 → s.inProg c a 256 = false →
      stores (.vst c t f) (leBytes 256 (x.vreg f.rc.toNat).toNat))
    ∧ (f.ra = 0 → pairOk f.rc = true → inside_ 384 → s.inProg c a 384 = false →
      stores (.vst48 c t f) ((upto 64).flatMap fun j => leBytes 6 (x.pairAt f.rc j))))
  ∧ (
  (∀ (s : State) (c : CoreId) (slot : SlotId) (l : LutLoad) (r : List LutLoad),
      takeFirst (fun z : LutLoad => z.slot == slot.val) (s.core c).vec.loads = some (l, r) →
      let tb := s.bytes l.addr 4128
      ∃ u, exec (.vlutldDone c slot) s = .next u ∧ (u.core c).vec.loads = r ∧ u.mem = s.mem
        ∧ bit (u.core c).vec.valid slot = tbValid tb
        ∧ (if tbValid tb then mapGet [] (u.core c).vec.tables slot = tb else (u.core c).stepFault = true))
  ∧ ∀ (s : State) (c : CoreId) (t : ThreadId) (f : IFields), s.blockOn c 1 = true → f.plain = true →
    let x := s.thread c t
    let n := cvtCount f.fmtD f.fmtS
    let v := (s.core c).vec
    let dec := (ffmt f.fmtS).decode
    let o := if cvtBytes n f.fmtS < 256 then f.part * n else 0
    let od := if cvtBytes n f.fmtD < 256 then f.part * n else 0
    let writes := fun (i : Instr) (g : Nat → Nat) =>
      Fetches i s → ∃ u r, exec i s = .next u ∧ OnlyThread (s.fetch c t) u c t (vresult f.ra r (fetchedOf s c t))
        ∧ ∀ j, j < n → VReg.lane r (elemBits f.fmtD) (od + j) = g j % 2 ^ elemBits f.fmtD
    (Ready s c t [] → f.rc = 0 → f.rd = 0 → lutFields f = true → f.scb = false → f.mod < 16 → vok f.ra = true → vok f.rb = true →
      v.loadingBy f.mod t = false → bit v.valid f.mod = true →
      writes (.vlut c t f) fun i => lut (mapGet [] v.tables f.mod) (ffmt f.fmtD) (dec (cvtSrc x f n i)))
    ∧ (Ready s c t (rcRegs f) → f.rd = 0 → lutFields f = true → f.mod < 8 → vok f.ra = true → vok f.rb = true → rcOk f = true →
      v.loadingBy (2 * f.mod + 1) t = false → bit v.valid (2 * f.mod + 1) = true →
      writes (.vlutg c t f) fun i => ((ffmt f.fmtD).round (FV.mul (dec (rcLane x f (elemBits f.fmtS) (o + i)))
        (b32v (lut (mapGet [] v.tables (2 * f.mod + 1)) fB32 (dec (cvtSrc x f n i)))))).code)
    ∧ (Ready s c t [f.rb] → f.ra = 0 → f.rc = 0 → f.rd = 0 → f.im 29 4 = 0 →
      let a := (x.sreg f.rb).toNat
      a % 64 = 0 → sliceBase c ≤ a → a + 4128 ≤ sliceBase c + sliceSize → s.inProg c a 4128 = false →
      Fetches (.vlutld c t f) s → ∃ u, exec (.vlutld c t f) s = .next u ∧ (u.core c).vec = { v with loads := v.loads ++ [⟨f.mod % 16, t, a⟩] }
        ∧ u.thread c t = { fetchedOf s c t with pc := x.pc + 8 } ∧ (∀ d, d ≠ c → u.core d = s.core d) ∧ u.mem = s.mem)
    ∧ (Ready s c t [f.rc, f.rd] → f.imm = 0 → pairOk f.ra = true → vok f.rb = true →
      let m := fun i => fM48.decode (x.pairAt f.ra i)
      let g := fun i => b32v (VReg.lane (x.vreg f.rb.toNat) 32 i)
      let out := fun i => srM48 (FV.add (m i) (g i))
        (rosin s.img.jobSeed s.step.committed (field (x.sreg f.rc) 9 0) ((x.sreg f.rd).toNat + i))
      let nf := (upto 64).any fun i => (m i).nonfinite || (g i).nonfinite || (fM48.decode (out i)).nonfinite
      Fetches (.vsradd c t f) s → ∃ u, exec (.vsradd c t f) s = .next u ∧ VectorFrame (s.fetch c t) u c t
        ∧ (∀ i, i < 64 → (u.thread c t).pairAt f.ra i = out i % 2 ^ 48)
        ∧ (u.thread c t).pc = x.pc + 8 ∧ (u.core c).vec.cst.updNf = ((s.core c).vec.cst.updNf || nf)
        ∧ (nf = true → (u.core c).stepFault = true)))

/-! ## The matrix array -/

/-- R73, R74, R113, R114, R127: an array instruction whose queue and counter have room and whose footprint is aligned, in the own slice and
outside the program region goes to the end of its partition's queue; its counter rises; nothing is read or written yet. -/
def Obligations.ArrayInstructionsQueue : Prop :=
  ∀ (s : State) (c : CoreId) (t : ThreadId) (f : IFields),
    let p := f.im 29 28
    let x := s.thread c t
    let q := s.part c p
    let mode := (s.core c).arr.mode
    let ra := (x.sreg f.ra).toNat
    let st := field (x.sreg f.rb) 23 0
    let mb := field (x.sreg f.rb) 31 24
    let mc := f.im 13 5
    let bank := f.im 27 27
    let cols := fun (cm sz : Nat) => (upto mc).flatMap fun j => (maskCols mode p cm).map fun n => (ra + j * st + (n - p * partW mode) * sz, sz)
    let queued := fun (i : Instr) (o : ArrOp) => Fetches i s → ∃ u, exec i s = .next u
      ∧ (u.part c p).queue = q.queue ++ [{ o with id := q.nextId, tr := f.track t }] ∧ (u.part c p).nextId = q.nextId + 1
      ∧ (u.thread c t).pc = x.pc + 8
      ∧ (f.wen = true → (u.thread c t).wait f.wctr.toNat = { x.wait f.wctr.toNat with n := (x.wait f.wctr.toNat).n + 1 })
      ∧ (∀ j, j ≠ p → u.part c j = s.part c j) ∧ (∀ d, d ≠ c.val → u.core d = s.core d)
      ∧ (u.core c).arr.acc = (s.core c).arr.acc ∧ (u.part c p).act = q.act ∧ (u.part c p).shd = q.shd ∧ (u.part c p).flags = q.flags
      ∧ u.mem = s.mem
    f.trackOk = true → partHas mode p = true → q.queue.length < 8 → x.trackRoom (f.track t) = true →
    (Ready s c t [f.ra] → f.rb = 0 → f.rc = 0 → f.rd = 0 → f.im 27 7 = 0 →
      queued (.aflag c t f) { kind := .aflag, dest := f.ra.toNat, clearMask := f.im 6 0 })
    ∧ (Ready s c t [f.ra, f.rb, f.rc] → f.rd = 0 → f.im 23 0 = 0 → inBits (f.im 27 24) ≠ 0 →
      let fmt := f.im 27 24
      let rm := field (x.sreg f.rb) 63 32
      let sa := (x.sreg f.rc).toNat
      let w := partW mode
      let e := cellE (inBits fmt)
      s.segFault c (ra % 64 != 0 || st % 64 != 0)
        (((maskRows rm).flatMap fun r => (seqFrom (r * e) e).map fun k => (ra + k * st, w * inBits fmt / 8))
          ++ if isMx fmt then (upto (passK (inBits fmt) / 32)).map fun b => (sa + b * 32, w) else []) = none →
      queued (.aload c t f) { kind := .aload, addr := ra, stride := st, mask := rm, saddr := sa, fmt := fmt })
    ∧ (Ready s c t [f.ra, f.rb, f.rc, f.rd] → f.im 4 0 = 0 → inBits (f.im 21 18) ≠ 0 → inBits (f.im 17 14) = inBits (f.im 21 18) →
      f.im 23 22 ≠ 3 → 1 ≤ mc → mb + mc ≤ 256 →
      let fa := f.im 21 18
      let fb := f.im 17 14
      let vc := x.sreg f.rc
      let km := field (x.sreg f.rb) 63 32
      let cm := field vc 31 0
      let sA := sgn 8 (field vc 55 48)
      let sB := sgn 8 (field vc 63 56)
      let dflt := f.im 24 24 == 1
      let wide := inBits fa == 16
      let swap := f.im 26 26 == 1
      maskOk mode p cm = true → (∀ cl, q.effClaim bank = some cl → cl = ⟨t.val, wide⟩) →
      (∀ y, (if swap then q.effFmts.2 else q.effFmts.1) = some y → y = fb) →
      (wide = true ∨ narrowOk fa fb sA sB (sgn 16 (field vc 47 32)) dflt = true) →
      s.segFault c (ra % 64 != 0 || st % 64 != 0)
        (((upto mc).flatMap fun j => (maskRows km).map fun r => (ra + j * st + r * 16, 16))
          ++ if isMx fa then [((x.sreg f.rd).toNat, mc * (passK (inBits fa) / 32))] else []) = none →
      queued (.astream c t f)
        { kind := .astream, addr := ra, stride := st, mask := km, saddr := (x.sreg f.rd).toNat, fmtA := fa, fmtB := fb, bank := bank
          swap := swap, accInit := f.im 25 25 == 1
          anchor := if dflt then anchorL fa + anchorL fb + sA + sB else sgn 16 (field vc 47 32)
          sA := sA, sB := sB, g := 16 / 2 ^ (f.im 23 22), mbase := mb, mcount := mc, colMask := cm })
    ∧ (Ready s c t [f.ra, f.rb, f.rc] → f.rd = 0 → f.im 4 0 = 0 → drainFmt (f.im 25 22) = true →
      (f.im 25 22 = 3 ∨ f.im 25 22 = 4 ∨ f.im 25 22 = 8 ∨ sgn 8 (f.im 21 14) = 0) → -126 ≤ sgn 8 (f.im 21 14) → 1 ≤ mc → mb + mc ≤ 256 →
      let cm := field (x.sreg f.rb) 63 32
      let am := (x.sreg f.rc).toNat
      maskOk mode p cm = true → (∀ cl, q.effClaim bank = some cl → cl.thr = t.val) →
      s.segFault c (ra % 64 != 0 || st % 64 != 0 || am % 4 != 0)
        (cols cm (elemBits (f.im 25 22) / 8) ++ if am = 0 then [] else [(am, 4)]) = none →
      queued (.adrain c t f)
        { kind := .adrain, addr := ra, stride := st, bank := bank, clear := f.im 26 26 == 1, outFmt := f.im 25 22
          outScale := sgn 8 (f.im 21 14), mbase := mb, mcount := mc, colMask := cm, amax := am })
    ∧ (Ready s c t [f.ra, f.rb] → f.rc = 0 → f.rd = 0 → f.im 4 0 = 0 → f.im 26 14 = 0 → 1 ≤ mc → mb + mc ≤ 256 →
      let cm := field (x.sreg f.rb) 63 32
      maskOk mode p cm = true → (∀ cl, q.effClaim bank = some cl → cl = ⟨t.val, true⟩) →
      s.segFault c (ra % 64 != 0 || st % 64 != 0) (cols cm 4) = none →
      queued (.aseed c t f) { kind := .aseed, addr := ra, stride := st, bank := bank, mbase := mb, mcount := mc, colMask := cm })

/-- R48, R71 to R82: how tiles are loaded, and how a pass issues rows and writes its entries. R84 to R90, R115: drains, the maximum, flag
reads and seeds. -/
def Obligations.ArrayOperations : Prop :=
  (
  ∀ (s : State) (c : CoreId) (p : PartId),
    let q := s.part c p
    let mode := (s.core c).arr.mode
    (∀ o r, q.queue = o :: r → s.arrRuns c = true → o.kind = .aload → q.load = none →
      ∃ u, exec (.aloadStart c p) s = .next u ∧ (u.part c p).queue = r ∧ (u.part c p).load = some o ∧ u.mem = s.mem)
    ∧ (∀ o, q.load = some o → partHas mode p = true →
      let bits := inBits o.fmt
      let e := cellE bits
      let row := fun k => s.bytes (o.addr + k * o.stride) (partW mode * bits / 8)
      ∃ u, exec (.aloadDone c p) s = .next u ∧ (u.part c p).load = none ∧ (u.part c p).shd.fmt = some o.fmt ∧ u.mem = s.mem
        ∧ (u.part c p).act = q.act
        ∧ (∀ r j, r < 32 → j < partW mode → mapGet 0 (u.part c p).shd.cells (tileKey r (p * partW mode + j))
            = if o.mask.testBit r then cellBits row bits e r j else mapGet 0 q.shd.cells (tileKey r (p * partW mode + j)))
        ∧ (o.tr.wen = true → (u.thread c o.tr.thr).st ≠ .idle →
            ((u.thread c o.tr.thr).wait o.tr.wctr).n = ((s.thread c o.tr.thr).wait o.tr.wctr).n - 1))
    ∧ (∀ o, q.queue.find? (fun o => decide (o.kind = .astream) && isMx o.fmtA && !(q.sscale.any fun e => e.1 == o.id)) = some o →
      s.arrRuns c = true → q.sscale.length < 2 →
      ∃ u b, exec (.streamScaleRead c p) s = .next u ∧ u.mem = s.mem
        ∧ (u.part c p).sscale = q.sscale ++ [(o.id, s.bytes o.saddr (o.mcount * (passK (inBits o.fmtA) / 32)), b)])
    ∧ (∀ (z : Pass) fresh u, q.nextPass = some (z, fresh) → s.arrRuns c = true → q.heldRow z.op z.issued = false →
      ∃ v r, exec (.astreamRowIssue c p u) s = .next v ∧ (v.part c p).rows = q.aged z.op z.issued ++ [r] ∧ r.bank = z.op.bank
        ∧ r.anchor = z.op.anchor ∧ r.mrow = z.op.mbase + z.issued ∧ r.accInit = z.op.accInit ∧ r.cols.map (·.col) = maskCols mode p z.op.colMask
        ∧ (v.core c).arr.acc = (s.core c).arr.acc ∧ v.mem = s.mem
        ∧ (fresh = true → (v.part c p).queue = q.queue.drop 1))
    ∧ (∀ (b : BankId) i r, q.nextWrite b = some (i, r) → (r.cols.map (·.col)).Nodup →
      ∃ u, exec (.astreamRowWrite c p ⟨b, []⟩) s = .next u ∧ (u.part c p).rows.length + 1 = q.rows.length ∧ u.mem = s.mem
        ∧ (u.part c p).inflight b + 1 = q.inflight b
        ∧ (∀ x, x ∈ r.cols → mapGet {} (u.core c).arr.acc (accKey r.bank r.mrow x.col)
            = ((mapGet {} (s.core c).arr.acc (accKey r.bank r.mrow x.col) : Entry).addRow r.accInit r.wide r.anchor x).1)
        ∧ (∀ k, (∀ x, x ∈ r.cols → k ≠ accKey r.bank r.mrow x.col) →
            mapGet {} (u.core c).arr.acc k = (mapGet {} (s.core c).arr.acc k : Entry))))
  ∧ (
  ∀ (s : State) (c : CoreId) (p : PartId),
    let q := s.part c p
    let mode := (s.core c).arr.mode
    (∀ o r, q.queue = o :: r → s.arrRuns c = true → q.allIssued = true →
      (o.kind = .adrain →
        ∃ u, exec (.adrainStart c p) s = .next u ∧ (u.part c p).queue = r
          ∧ (u.part c p).drains = q.drains ++ [{ op := o, todo := drainOuts mode p o }] ∧ u.mem = s.mem)
      ∧ (o.kind = .aseed → (∀ d, d ∈ q.drains → d.op.bank = o.bank → d.read = true) →
        ∃ u, exec (.aseedStart c p) s = .next u ∧ (u.part c p).queue = r ∧ (u.part c p).seeds = q.seeds ++ [o] ∧ u.mem = s.mem)
      ∧ (o.kind = .aflag → q.load = none → q.passes = [] → q.rows = [] → q.drains = [] → q.seeds = [] → o.dest < 32 →
        ∃ u, exec (.aflagDone c p) s = .next u ∧ (u.part c p).queue = r
          ∧ (u.part c p).flags = q.flags &&& ~~~(BitVec.ofNat 7 o.clearMask)
          ∧ (u.thread c o.tr.thr).sreg (BitVec.ofNat 5 o.dest) = (if o.dest = 0 then 0 else q.flags.setWidth 64) ∧ u.mem = s.mem))
    ∧ (∀ (b : BankId) d j n rest, q.reading b = some d → d.todo = (j, n) :: rest → (q.drains.map fun e => e.op.id).Nodup →
      let o := d.op
      let x : Entry := mapGet {} (s.core c).arr.acc (accKey o.bank (o.mbase + j) n)
      let r := drainConv o (x.value (q.bankWide o.bank))
      let a := o.addr + j * o.stride + (n - p * partW mode) * (elemBits o.outFmt / 8)
      inSlice c a r.1.length = true →
      ∃ u, exec (.drainOutputWrite c p ⟨b, .ok⟩) s = .next u
        ∧ (∀ y, y < a ∨ a + r.1.length ≤ y → u.byte y = s.byte y) ∧ (s.ecc = [] → u.bytes a r.1.length = r.1)
        ∧ (rest ≠ [] → (∃ e, e ∈ (u.part c p).drains ∧ e.op = o ∧ e.todo = rest ∧ e.read = false)
            ∧ (u.core c).arr.acc = (s.core c).arr.acc)
        ∧ (rest = [] → o.amax = 0 → (u.part c p).drains = q.drains.filter fun e => e.op.id != o.id)
        ∧ (rest = [] → o.amax ≠ 0 → ∃ e, e ∈ (u.part c p).drains ∧ e.op = o ∧ e.read = true))
    ∧ (∀ (b : BankId) d, q.drains.find? (fun d => d.op.bank == b.val && d.read) = some d → inSlice c d.op.amax 4 = true → s.ecc = [] →
      ∃ u, exec (.amaxMerge c ⟨p, b⟩) s = .next u ∧ (u.part c p).drains = q.drains.filter (fun e => e.op.id != d.op.id)
        ∧ leNat (u.bytes d.op.amax 4) = max (leNat (s.bytes d.op.amax 4) % 2 ^ 31) (rb32 d.amax % 2 ^ 31)
        ∧ (∀ y, y < d.op.amax ∨ d.op.amax + 4 ≤ y → u.byte y = s.byte y))
    ∧ (∀ (b : BankId) o, q.seeds.find? (fun o => o.bank == b.val) = some o → q.inflight o.bank = 0 →
      ((drainOuts mode p o).map fun x => accKey o.bank (o.mbase + x.1) x.2).Nodup →
      ∃ u, exec (.aseedDone c ⟨p, b⟩) s = .next u ∧ (u.part c p).seeds = q.seeds.filter (fun z => z.id != o.id) ∧ u.mem = s.mem
        ∧ (∀ x, x ∈ drainOuts mode p o →
            let w := leNat (s.bytes (o.addr + x.1 * o.stride + (x.2 - p * partW mode) * 4) 4)
            mapGet {} (u.core c).arr.acc (accKey o.bank (o.mbase + x.1) x.2)
              = (⟨BitVec.ofNat 96 (if (b32v w).isNan then fB32.nanCode else w), (b32v w).isNan, true, 0⟩ : Entry))))

/-- R92, R95, R97 to R99, R139: drone beats, the ramps of the array's power, and the faults that stop a core. -/
def Obligations.ArrayPowerAndFaults : Prop :=
  ∀ (s : State) (c : CoreId),
    let a := (s.core c).arr
    let cfg := s.raw (aArr c 0x050)
    let goes := fun (i : Instr) (st : ArrPwr) (level timer : Nat) => ∃ u, exec i s = .next u
      ∧ (u.core c).arr.pwr = st ∧ (u.core c).arr.level = level ∧ (u.core c).arr.timer = timer
      ∧ { u.core c with arr := a } = s.core c ∧ (∀ d, d ≠ c.val → u.core d = s.core d) ∧ { u with cores := s.cores, regs := s.regs } = s
    (∀ p : PartId, s.arrRuns c = true → partHas a.mode p = true → a.pwr ≠ .cold → pwrDrone a.cfg = true →
      ∃ u, exec (.droneBeat c p) s = .next u ∧ (u.raw (aArr c 0x058)).toNat = satAdd 32 (s.raw (aArr c 0x058)).toNat 1
        ∧ { u with regs := s.regs } = s)
    ∧ (a.timer ≤ s.now →
      (a.pwr = .softStart → a.level < 8 → goes (.softStartLevelTimer c) .softStart (a.level + 1) (s.now + field a.cfg 23 16 * 125))
      ∧ (a.pwr = .softStart → 8 ≤ a.level → ∃ u, exec (.softStartLevelTimer c) s = .next u ∧ (u.core c).arr.pwr ≠ .softStart)
      ∧ (a.pwr = .drone → pwrDrone cfg = true → goes (.droneMaxTimer c) .rampDown 8 (s.now + field cfg 15 8 * 125))
      ∧ (a.pwr = .drone → pwrDrone cfg = false → goes (.droneMaxTimer c) .cold 0 0)
      ∧ (a.pwr = .rampDown → 1 < a.level → goes (.rampDownLevelTimer c) .rampDown (a.level - 1) (s.now + field a.cfg 15 8 * 125))
      ∧ (a.pwr = .rampDown → a.level ≤ 1 → goes (.rampDownLevelTimer c) .cold 0 0))
    ∧ ((s.core c).ready = true →
      let stops := fun (i : Instr) (b : Nat) => ∃ u, exec i s = .next u ∧ (u.core c).faultState = true
        ∧ (u.core c).faultBits = (s.core c).faultBits ||| BitVec.ofNat 4 b ∧ (u.core c).arr.acc = a.acc ∧ (u.core c).mq = []
        ∧ (∀ p, (u.part c p).queue = [] ∧ (u.part c p).rows = [] ∧ (u.part c p).flags = (s.part c p).flags)
        ∧ (u.core c).stepFault = true ∧ (∀ d, d ≠ c.val → u.core d = s.core d) ∧ u.mem = s.mem
      (∀ k, stops (.arrCoreFault c k) 1 ∧ ∃ u, exec (.arrCoreFault c k) s = .next u ∧ bit (u.core c).arr.fault k.bitNo = true)
        ∧ stops (.coreFaultState c .issue) 2 ∧ stops (.coreFaultState c .move) 4)

/-! ## Moves, atomic operations, contributions; the sync unit and the life of threads -/

/-- R116 to R123, R125, R127, R489: a MOVE whose descriptor is sound is queued; a queued move takes a free slot; an owner of nothing more
completes. A local COPY of one run of at most 512 B copies those bytes and no other. -/
def Obligations.MoveLifeCycle : Prop :=
  (∀ (s : State) (c : CoreId) (t : ThreadId) (f : IFields) (d : MoveDesc),
    let x := s.thread c t
    let a := (x.sreg f.ra).toNat
    Ready s c t [f.ra] → f.trackOk = true → f.rb = 0 → f.rc = 0 → f.rd = 0 → f.imm = 0 →
    (s.core c).mq.length < 64 → x.trackRoom (f.track t) = true →
    a % 64 = 0 → sliceBase c ≤ a → a + 64 ≤ sliceBase c + sliceSize → ((s.fetch c t).read a 64 0 c).2.2 = false →
    decodeMove (s.bytes a 64) = (d, true) → d.legal = true → d.dramDst = true → d.aligned = true → s.footOk d = true →
    s.footProg d = false →
    Fetches (.move c t f) s → ∃ u, exec (.move c t f) s = .next u ∧ (u.core c).mq = (s.core c).mq ++ [⟨d, f.track t⟩] ∧ (u.thread c t).pc = x.pc + 8
      ∧ (f.wen = true → ((u.thread c t).wait f.wctr.toNat).n = (x.wait f.wctr.toNat).n + 1)
      ∧ (u.core c).run = (s.core c).run ∧ (∀ e, e ≠ c.val → u.core e = s.core e) ∧ u.mem = s.mem)
  ∧ (∀ (s : State) (c : CoreId) (o : MoveOp) (r : List MoveOp) (i : Nat),
    (s.core c).mq = o :: r → (s.core c).freeSlot = some i → s.moveRuns c = true →
    s.moveHeld o.d = false →
    (o.d.atomic = true → ∃ u, exec (.moveStart c) s = .next u ∧ (u.core c).mq = r ∧ (u.core c).slot i = some { op := o } ∧ u.mem = s.mem)
    ∧ (o.d.atomic = false → (o.d.put = true ∨ o.d.get = true) → o.d.mx = false →
      ∃ u, exec (.moveStart c) s = .next u ∧ (u.core c).mq = r ∧ (u.core c).slot i = some { op := o } ∧ u.mem = s.mem)
    ∧ (o.d.kind = kCopy → o.d.put = false → o.d.get = false → o.d.mx = false → o.d.cnt1 = 1 → o.d.cnt2 = 1 → 1 ≤ o.d.len0 →
      o.d.len0 ≤ 512 →
      let src := o.d.srcAt 0
      let dst := o.d.dstAt 0
      s.ecc = [] → s.accRange (halfOf c) src o.d.len0 = .ok → s.accRange (halfOf c) dst o.d.len0 = .ok →
      s.closedReq dst o.d.len0 = false → dst + o.d.len0 ≤ dramBase →
      ∃ u, exec (.moveStart c) s = .next u ∧ (u.core c).mq = r
        ∧ (u.core c).slot i = some { op := o, err := false, done := true }
        ∧ u.bytes dst o.d.len0 = s.bytes src o.d.len0 ∧ (∀ y, y < dst ∨ dst + o.d.len0 ≤ y → u.byte y = s.byte y)))
  ∧ (∀ (s : State) (c : CoreId) (slot : SlotId) (m : RunMove),
    (s.core c).slot slot = some m → m.done = true → m.owed = [] → m.stopped = false → s.moveRuns c = true →
    ∃ u, exec (.moveComplete c slot) s = .next u ∧ (u.core c).slot slot = none ∧ u.mem = s.mem
      ∧ (m.op.tr.wen = true → (u.thread c m.op.tr.thr).st ≠ .idle →
          (u.thread c m.op.tr.thr).wait m.op.tr.wctr
            = ⟨((s.thread c m.op.tr.thr).wait m.op.tr.wctr).n - 1, ((s.thread c m.op.tr.thr).wait m.op.tr.wctr).err || m.err⟩)
      ∧ (m.err = true → (u.core c).stepFault = true))

/-- R175, R176: what ADD, MAX and OR make of one 32-bit element: the sum held to int32, the larger signed word, the union; a beat of ADD is
spoiled when a sum is held or an incoming element fails the guard. R173 to R176: a run of one carrier beat, without memory errors: its
bytes become the old bytes combined with the source's, and its metadata follows the last rows of R173. R178, R179, R339: the home die
counts a contribution and knows when the bucket is FULL or in EXCESS; a full bucket is reported. -/
def Obligations.AtomicsAndBuckets : Prop :=
  (
  ∀ (old new : List Byte) (g : Option Nat) (i : Nat), old.length = new.length → 4 * i + 4 ≤ new.length → new.length % 4 = 0 →
    let x := leAt old (4 * i) 4
    let y := leAt new (4 * i) 4
    sgn 32 (leAt (beatAdd old new g).data (4 * i) 4) = max (-2147483648) (min 2147483647 (sgn 32 x + sgn 32 y))
      ∧ sgn 32 (leAt (wordsBy maxWord old new) (4 * i) 4) = max (sgn 32 x) (sgn 32 y)
      ∧ leAt (wordsBy (fun p q => p ||| q) old new) (4 * i) 4 = x ||| y
      ∧ ((sgn 32 x + sgn 32 y < -2147483648 ∨ 2147483647 < sgn 32 x + sgn 32 y
          ∨ ∃ n, g = some n ∧ 2 ^ (31 - n) ≤ (sgn 32 y).natAbs) → (beatAdd old new g).spoil = true))
  ∧ (
  ∀ (s : State) (c : CoreId) (slot : SlotId) (m : RunMove) (r : Region),
    let d := m.op.d
    let a := d.dstAt m.run
    let src := d.srcAt m.run
    (s.core c).slot slot = some m → m.done = false → s.moveRuns c = true → m.off = 0 → d.len0 = 256 → a % 256 = 0 →
    regionAt s.regions a = some r → r.carrier = true → r.size % r.w = 0 → s.ecc = [] →
    s.accRange (halfOf c) src 256 = .ok → s.accRange (halfOf c) a 256 = .ok → s.closedReq a 256 = false →
    let old := s.bytes a 256
    let new := s.bytes src 256
    let meets := fun (i : Instr) (out : List Byte) (word : Nat) (spoil : Bool) =>
      ∃ u m1, exec i s = .next u ∧ u.bytes a 256 = out ∧ u.beatMeta r a = (word, spoil) ∧ (u.core c).slot slot = some m1
        ∧ m1.op = m.op ∧ m1.off = 0 ∧ m1.run = m.run + 1 ∧ (∀ e, e ≠ c.val → u.core e = s.core e) ∧ u.regions = s.regions
    let sp := (s.beatMeta r a).2
    (d.kind = kAdd →
      let o := beatAdd old new ((s.buckets.find? fun q => within a q.2.base q.2.len).map fun q => q.2.guard)
      meets (.atomicAdd c slot) o.data (((s.beatMeta r a).1 + tuneWord new) % 65521) (sp || o.spoil))
    ∧ (d.kind = kMax → meets (.atomicMax c slot) (wordsBy maxWord old new) (tuneWord (wordsBy maxWord old new)) sp)
    ∧ (d.kind = kOr → meets (.atomicOr c slot) (wordsBy (fun p q => p ||| q) old new) (tuneWord (wordsBy (fun p q => p ||| q) old new)) sp))
  ∧ (
  (∀ (s : State) (c : CoreId) (slot : SlotId) (m : RunMove) (k b : Nat) (r : List Nat),
    (s.core c).slot slot = some m → m.owed = k :: r → s.bucketOf (m.op.d.dstAt k) m.op.d.len0 = some b →
    s.accKey (halfOf c) (s.homeKey (mapGet {} s.buckets b)) = .ok →
    let old : BktCnt := mapGet {} s.bkt b
    let e := (mapGet {} s.buckets b : Bucket).expected
    ∃ u, exec (.contribRx c slot) s = .next u ∧ u.mem = s.mem
      ∧ (mapGet {} u.bkt b : BktCnt).count = old.count + 1
      ∧ (mapGet {} u.bkt b : BktCnt).full = (old.full || decide (old.count + 1 = e))
      ∧ (mapGet {} u.bkt b : BktCnt).excess = (old.excess || decide (e ≤ old.count))
      ∧ (∀ j, j ≠ b → mapGet {} u.bkt j = (mapGet {} s.bkt j : BktCnt))
      ∧ (m.stopped = false → ∃ m1, (u.core c).slot slot = some m1 ∧ m1.owed = r ∧ m1.err = (m.err || decide (e ≤ old.count))))
  ∧ (∀ (s : State) (b : Fin 4095), (mapGet {} s.bkt b : BktCnt).full = true →
    ∃ u, exec (.bucketFull b) s = .next u ∧ u.col.full.getLsbD b = true ∧ { u with col := s.col } = s
      ∧ (∀ j, j ≠ b.val → u.col.full.getLsbD j = s.col.full.getLsbD j)))

/-- R129, R130, R137, R440: WAIT and WAITRC when they are met, lower waiting threads first, TEND, STEPFLT and EVNT. R108, R129, R139, R140: TSTART starts an idle thread
with its registers 0 and s1 the argument; a core that passes its self-test is ready with its receive counters 0, one that fails enters its
fault state. -/
def Obligations.ThreadOperations : Prop :=
  (
  ∀ (s : State) (c : CoreId) (t : ThreadId) (f : IFields),
    let x := s.thread c t
    let b := fetchedOf s c t
    let w := x.wait f.wctr.toNat
    (Ready s c t [f.ra] → f.wen = false → f.rb = 0 → f.rc = 0 → f.rd = 0 → f.im 29 8 = 0 → w.n ≤ f.im 7 0 →
      Retires (.wait c t f) s c t fun y =>
        { (y.setWait f.wctr.toNat { w with err := false }).setS f.ra (if w.err then 1 else 0) with pc := y.pc + 8 })
    ∧ (Ready s c t [f.rb] → f.plain = true → f.ra = 0 → f.rc = 0 → f.rd = 0 → f.im 29 4 = 0 →
      let v := mapGet 0 (s.core c).rc (f.im 3 0)
      let amt := (x.sreg f.rb).toNat % 2 ^ 32
      Fetches (.waitrc c t f) s →
      (amt ≤ v → s.rcBehind c t (f.im 3 0) = false →
        ∃ u, exec (.waitrc c t f) s = .next u ∧ mapGet 0 (u.core c).rc (f.im 3 0) = v - amt
          ∧ u.thread c t = { b with pc := x.pc + 8, rcWait := none }
          ∧ (∀ j, j ≠ f.im 3 0 → mapGet 0 (u.core c).rc j = mapGet 0 (s.core c).rc j) ∧ (∀ d, d ≠ c.val → u.core d = s.core d)
          ∧ u.mem = s.mem)
      ∧ (v < amt ∨ s.rcBehind c t (f.im 3 0) = true → ∃ u, exec (.waitrc c t f) s = .next u ∧ (u.core c).rc = (s.core c).rc
          ∧ OnlyThread s u c t { x with rcWait := some (f.im 3 0, amt) }))
    ∧ (Ready s c t [] → f.plain = true → f.ra = 0 → f.rb = 0 → f.rc = 0 → f.rd = 0 →
      (f.imm = 0 → Fetches (.tend c t f) s → ∃ u, exec (.tend c t f) s = .next u ∧ u.mem = s.mem ∧ (∀ d, d ≠ c.val → u.core d = s.core d)
        ∧ (u.thread c t).st = (if x.w.all (fun p => p.2.n == 0) then .idle else .ending) ∧ (u.thread c t).s = x.s)
      ∧ (f.im 29 16 = 0 → Fetches (.stepflt c t f) s → exec (.stepflt c t f) s = .next
          ((((s.fetch c t).stepFault c 6 t (f.im 15 0)).post (halfOf c) 0x20 c .error 2 (leBytes 1 t ++ leBytes 2 (f.im 15 0))).modThread
            c t fun y => { y with pc := x.pc + 8 })))
    ∧ (Ready s c t [f.ra] → f.plain = true → f.rb = 0 → f.rc = 0 → f.rd = 0 → f.im 29 17 = 0 →
      Fetches (.evnt c t f) s → exec (.evnt c t f) s = .next
        (((s.fetch c t).post (halfOf c) 0x30 c (if f.im 16 16 = 0 then .notice else .trace) (f.im 15 0)
          (leBytes 8 (x.sreg f.ra).toNat)).modThread c t fun y => { y with pc := x.pc + 8 })))
  ∧ (
  (∀ (s : State) (c : CoreId) (t : ThreadId) (f : IFields),
    let u := f.im 4 0
    let e := (s.thread c t).sreg f.ra
    Ready s c t [f.ra, f.rb] → f.plain = true → f.rc = 0 → f.rd = 0 → f.im 29 5 = 0 → (s.thread c u).st = .idle → e.toNat % 8 = 0 →
    s.pcOk c e = true →
    Fetches (.tstart c t f) s → ∃ v, exec (.tstart c t f) s = .next v ∧ (v.thread c u).st = .run ∧ (v.thread c u).pc = e
      ∧ (∀ r : BitVec 5, (v.thread c u).sreg r = if r = 1 then (s.thread c t).sreg f.rb else 0)
      ∧ (∀ r, (v.thread c u).vreg r = 0) ∧ (∀ r, (v.thread c u).wait r = {})
      ∧ (v.thread c t).pc = (s.thread c t).pc + 8 ∧ (∀ d, d ≠ c.val → v.core d = s.core d) ∧ v.mem = s.mem)
  ∧ (∀ (s : State) (c : CoreId), (s.core c).ready = false → s.boot.coreFw = true → (s.half (halfOf c)).inReset = false →
    (∃ u, exec (.coreSelftestDone c true true) s = .next u ∧ u.core c = { s.core c with ready := true, rc := [] }
      ∧ (∀ d, d ≠ c.val → u.core d = s.core d) ∧ { u with cores := s.cores } = s)
    ∧ (∀ a b, a = false ∨ b = false →
      ∃ u, exec (.coreSelftestDone c a b) s = .next u ∧ (u.core c).ready = true ∧ (u.core c).faultState = true
        ∧ (u.core c).rc = [] ∧ (∀ d, d ≠ c.val → u.core d = s.core d) ∧ u.mem = s.mem)))

/-- R131, R132: barriers. The arrival that reaches the count releases every waiting thread at its next instruction; another arrival waits;
a group barrier is released when every core of the group has arrived and the bridge lets both halves know. -/
def Obligations.Barriers : Prop :=
  (∀ (s : State) (c : CoreId) (t : ThreadId) (f : IFields),
    let n := f.im 15 8
    let x := s.thread c t
    Ready s c t [] → f.plain = true → f.noRegs = true → f.im 29 16 = 0 → 1 ≤ n → n ≤ 32 → (s.core c).lutDone t = true →
    (f.im 7 3 = 0 →
      let q : Bar := mapGet {} (s.core c).bars (f.im 2 0)
      (q.arr = [] ∨ q.need = n) →
      (q.arr.length + 1 = n →
        Fetches (.bar c t f) s → ∃ u, exec (.bar c t f) s = .next u ∧ mapGet {} (u.core c).bars (f.im 2 0) = ({} : Bar) ∧ (u.thread c t).pc = x.pc + 8
          ∧ (∀ j, j ∈ q.arr → j ≠ t.val → (s.thread c j).waitOn = .bar (f.im 2 0) →
              (u.thread c j).waitOn = .none ∧ (u.thread c j).pc = (s.thread c j).pc + 8) ∧ u.mem = s.mem)
      ∧ (q.arr.length + 1 ≠ n →
        Fetches (.bar c t f) s → ∃ u, exec (.bar c t f) s = .next u ∧ mapGet {} (u.core c).bars (f.im 2 0) = (⟨n, q.arr ++ [t.val]⟩ : Bar)
          ∧ (u.thread c t).waitOn = .bar (f.im 2 0) ∧ (u.thread c t).pc = x.pc ∧ u.mem = s.mem))
    ∧ (f.im 7 4 = 0 → (s.group (f.im 3 0)).isSome = true →
      let q : Bar := mapGet {} (s.core c).gbars (f.im 3 0)
      (q.arr = [] ∨ (q.need = n ∧ q.arr.length ≠ n)) →
      Fetches (.gbar c t f) s → ∃ u, exec (.gbar c t f) s = .next u ∧ mapGet {} (u.core c).gbars (f.im 3 0) = (⟨n, q.arr ++ [t.val]⟩ : Bar)
        ∧ (u.thread c t).waitOn = .gbar (f.im 3 0) ∧ (u.thread c t).pc = x.pc ∧ u.mem = s.mem))
  ∧ (∀ (s : State) (g : SlotId) (cs : List Nat), s.group g = some cs → (∀ c, c ∈ cs → (s.core c).arrived g = true) →
    (s.bridge.dataUp = true ∨ (∀ c, c ∈ cs → c < 48) ∨ (∀ c, c ∈ cs → 48 ≤ c)) →
    ∃ u, exec (.gbarRelease g) s = .next u ∧ { u with cores := s.cores } = s
      ∧ ∀ c, c ∈ cs → mapGet {} (u.core c).gbars g = ({} : Bar)
        ∧ ∀ j, j ∈ (mapGet {} (s.core c).gbars g : Bar).arr → (s.thread c j).waitOn = .gbar g →
            (u.thread c j).waitOn = .none ∧ (u.thread c j).pc = (s.thread c j).pc + 8)

/-! ## Memory errors and the bridge -/

/-- R181 to R185, R187, R188: the patrol scrub corrects a correctable error, counts it and leaves memory as it was; an uncorrectable one
stays, is latched and touches only its own unit; windows and temperatures. R19, R186, R431: the bridge: replays, the loss of its data
lanes, and its return. -/
def Obligations.ScrubStacksAndBridge : Prop :=
  (
  (∀ (s : State) (loc : Nat), (s.scrubCfg (winOf loc)).1 = true → isUnit loc = true → s.boot.released = true →
    (winOf loc = 12 → s.pstate ≠ .rest) → (winOf loc ≠ 12 → (s.stack (winOf loc)).f.st = .on) →
    let ce := (stackOfKey loc).elim 0xCC000 fun j => aStk j 0x004
    (∀ x, x = none ∨ x = some EccKind.correctable →
      ∃ u, exec (.patrolScrub loc x) s = .next u ∧ u.mem = s.mem
        ∧ (∀ e, e ∈ u.ecc → e.key = loc → e.kind = .uncorrectable)
        ∧ (x = some .correctable → (∀ e, e ∈ s.ecc → e.key ≠ loc) → (u.raw ce).toNat = satAdd 32 (s.raw ce).toNat 1))
    ∧ (∃ u, exec (.patrolScrub loc (some .uncorrectable)) s = .next u ∧ (⟨loc, .uncorrectable⟩ : EccLoc) ∈ u.ecc ∧ u.step.memUe = true
      ∧ ∀ k, k < loc ∨ loc + (if loc < 2 ^ 44 then 8 else 64) ≤ k → mapGet 0 u.mem k = mapGet 0 s.mem k))
  ∧ (∀ (s : State) (j : Option StackId),
    let w := (j.map Fin.val).getD 12
    (s.scrubCfg w).1 = false → mapGet 0 s.ceWin w + (s.scrubCfg w).2 ≤ s.now →
    ∃ u, exec (.ceWindowEnd j) s = .next u ∧ mapGet 0 u.ceWin w = s.now ∧ (∀ p, p ∈ u.ceSeen → winOf p.1 ≠ w)
      ∧ { u with ceSeen := s.ceSeen, ceWin := s.ceWin } = s)
  ∧ (∀ (s : State) (j : StackId) (temp : Byte), s.boot.released = true →
    ∃ u, exec (.stackTempChange j temp) s = .next u
      ∧ u.stack j = { s.stack j with temp := temp.toNat, refresh2x := decide (85 < temp.toNat) }
      ∧ (∀ i, i ≠ j.val → u.stack i = s.stack i) ∧ { u with stks := s.stks, ev := s.ev, regs := s.regs } = s
      ∧ ((s.stack j).temp < 95 → 95 ≤ temp.toNat →
          u = (s.modStack j fun x => { x with temp := temp.toNat, refresh2x := decide (85 < temp.toNat) }).post (j / 6) 0x0C j .warning 4
            (leBytes 1 temp.toNat))))
  ∧ (
  ∀ (s : State),
    (s.bridge.dataUp = true →
      (s.bridge.replays < 15 → ∃ u, exec .bridgeReplay s = .next u ∧ u.bridge = { s.bridge with replays := s.bridge.replays + 1 }
        ∧ (u.raw 0xD0004).toNat = satAdd 32 (s.raw 0xD0004).toNat 1 ∧ { u with bridge := s.bridge, regs := s.regs } = s)
      ∧ (15 ≤ s.bridge.replays → ∃ u, exec .bridgeReplay s = .next u
        ∧ u.bridge = { s.bridge with dataUp := false, down := s.bridge.down ||| 1, downAt := s.now }
        ∧ { u with bridge := s.bridge, ev := s.ev, regs := s.regs } = s)
      ∧ (∃ u, exec .bridgeTrainLoss s = .next u
        ∧ u.bridge = { s.bridge with dataUp := false, down := s.bridge.down ||| 2, downAt := s.now }
        ∧ { u with bridge := s.bridge, ev := s.ev, regs := s.regs } = s))
    ∧ (s.bridge.dataUp = false → s.bridge.down ≠ 0 → s.bridge.downAt = s.now →
      (s.bridge.replays = 15 → ∃ u, exec .bridgeReplay s = .next u ∧ u.bridge = { s.bridge with replays := 16, down := s.bridge.down ||| 1 }
        ∧ { u with bridge := s.bridge, regs := s.regs } = s)
      ∧ exec .bridgeTrainLoss s = .next { s with bridge := { s.bridge with down := s.bridge.down ||| 2 } })
    ∧ (s.boot.released = true →
      exec .sidebandTrained s = .next { s with bridge := { s.bridge with sideUp := true } }
      ∧ (s.bridge.training = true → ∃ u, exec .bridgeTrained s = .next u
        ∧ u.bridge = { s.bridge with dataUp := true, training := false, down := 0, replays := 0 }
        ∧ { u with bridge := s.bridge, stks := s.stks } = s
        ∧ (s.boot.warm = true → ∀ j, j < 12 → u.stack j = { s.stack j with selfRefresh := false })
        ∧ (s.boot.warm = false → u.stks = s.stks))))

/-! ## The synchronous step and the collectives -/

/-- R216, R217, R219 to R223, R228, R233: what OPEN, MICRO, MUTE and STRUM do where their phase allows them, and that an action whose phase
does not is refused. R220: MICRO raises MICRO by 1, and is refused when MICRO is N − 1. R396: without a schedule every action is refused. -/
def Obligations.StepActions : Prop :=
  (
  ∀ (s : State) (op e : Nat), s.actReady op = some e →
    let ph := s.step.phase
    let mode := leAt (s.recGet 0x1C 1).2 0 1
    (op = 0 → (ph = .idle ∨ ph = .muted ∨ ph = .failed) → s.step.torn = false → mode < 2 →
      ∃ u, exec .openStep s = .next u ∧ u.step.phase = .window ∧ u.step.attempt.toNat = satAdd 32 s.step.attempt.toNat 1
        ∧ u.step.micro = (if mode = 0 then 0 else s.step.micro) ∧ u.step.committed = s.step.committed
        ∧ u.step.muteDone = false ∧ u.step.strumDone = false ∧ u.step.votedReady = false ∧ u.step.actEnd = some (0, 0)
        ∧ (s.ecc = [] → u.step.memUe = false) ∧ u.step.rstLatch = false ∧ u.col.runs = [] ∧ (mode = 0 → u.bkt = [])
        ∧ ∀ c, (u.core c).stepFault = false ∧ (u.core c).vec.cst = {})
    ∧ (op = 2 → ph = .window → s.ecc = [] →
      ∃ u, exec .mute s = .next u ∧ u.step.phase = .muteVote
        ∧ u.step.muteLocal = BitVec.ofNat 64 (s.muteWord (leAt (s.recGet 0x18 4).2 0 4))
        ∧ u.step.committed = s.step.committed ∧ u.step.attempt = s.step.attempt ∧ u.step.memUe = false ∧ u.step.rstLatch = false
        ∧ (∀ c, (u.core c).stepFault = false ∧ (u.core c).vec.cst = {})
        ∧ (s.img.sched.isSome = true → u.step.voteAt = s.now ∧ ∃ r, r ∈ u.col.runs ∧ r.kind = 4))
    ∧ (op = 3 → (ph = .update ∨ ph = .muted) → s.ecc = [] →
      ∃ u, exec .strum s = .next u ∧ u.step.phase = .strumVote ∧ u.step.strumLocal = BitVec.ofNat 64 s.strumWord
        ∧ u.step.votedReady = decide (s.strumWord = 0) ∧ u.step.committed = s.step.committed
        ∧ (s.img.sched.isSome = true → u.step.voteAt = s.now ∧ ∃ r, r ∈ u.col.runs ∧ r.kind = 4))
    ∧ (op = 1 → (ph ≠ .window ∨ s.nm1 ≤ s.step.micro) → exec .micro s = .next (s.refuse e 1))
    ∧ (op = 2 → ph ≠ .window → exec .mute s = .next (s.refuse e 2))
    ∧ (op = 3 → ph ≠ .update → ph ≠ .muted → exec .strum s = .next (s.refuse e 3)))
  ∧ (
  ∀ (s : State) (e : Nat), s.actReady 1 = some e →
    (s.step.phase = .window → s.step.micro < s.nm1 → s.ecc = [] → ∃ u, exec .micro s = .next u ∧ u.step = { s.step with micro := s.step.micro + 1, actEnd := some (1, 0) }
      ∧ { u with step := s.step, col := s.col } = s)
    ∧ (s.step.micro = s.nm1 → exec .micro s = .next (s.refuse e 1)))
  ∧ (
  ∀ (s : State), s.img.sched = none → s.boot.released = true →
    exec .openStep s = .next (s.refused 0) ∧ exec .micro s = .next (s.refused 1) ∧ exec .mute s = .next (s.refused 2)
      ∧ exec .strum s = .next (s.refused 3))

/-- R216, R224, R225, R229, R231, R233: the end of an action, both vote timeouts, and the commit, by which COMMITTED_STEP rises by 1. R223,
R226, R229, R230, R233: what a vote decides. A mute result with a cause mutes the step; a strum result without one starts the commit and
exchanges every bank selector, one with a cause fails the step and commits nothing. -/
def Obligations.StepEndsAndVotes : Prop :=
  (
  ∀ (s : State),
    let counts := fun (u : State) => ∀ c, c < 96 → mapGet 0 (u.core c).rc s.stepRc = satAdd 32 (mapGet 0 (s.core c).rc s.stepRc) 1
    (∀ op status, s.step.actEnd = some (op, status) →
      ∃ u, exec .stepActionEnd s = .next u ∧ u.step.actEnd = none ∧ u.step.committed = s.step.committed ∧ u.step.attempt = s.step.attempt
        ∧ ((op ≠ 2 ∨ s.step.muted = false) → counts u))
    ∧ (s.step.phase = .muteVote → s.voteDue = true →
      ∃ u, exec .muteVoteTimeout s = .next u ∧ u.step.phase = .muted ∧ u.step.muted = true ∧ u.step.muteTimeout = true ∧ u.step.muteJob = 0
        ∧ u.step.actEnd = some (2, 2) ∧ u.step.committed = s.step.committed ∧ ∀ r, r ∈ u.col.runs → r.kind ≠ 4)
    ∧ (s.step.phase = .strumVote → s.voteDue = true →
      ∃ u, exec .strumVoteTimeout s = .next u ∧ u.step.phase = (if s.step.votedReady then .uncertain else .failed)
        ∧ u.step.strumTimeout = true ∧ u.step.actEnd = some (3, 2) ∧ u.step.committed = s.step.committed
        ∧ ∀ r, r ∈ u.col.runs → r.kind ≠ 4)
    ∧ (s.step.phase = .committing →
      ∃ u, exec .commitActionEnd s = .next u ∧ u.step.phase = .idle ∧ u.step.committed = s.step.committed + 1 ∧ u.step.attempt = 0
        ∧ u.step.micro = 0 ∧ counts u))
  ∧ (
  ∀ (s : State) (v : List Byte),
    ((s.muteResult v).step.phase = if allZero v then .update else .muted)
      ∧ (s.muteResult v).step.committed = s.step.committed ∧ (s.muteResult v).step.bankSel = s.step.bankSel
      ∧ (leAt v 0 8 = 0 → (s.strumResult v).step.phase = .committing
          ∧ (s.strumResult v).step.bankSel = s.step.bankSel ^^^ BitVec.ofNat 16 s.bankDef)
      ∧ (leAt v 0 8 ≠ 0 → (s.strumResult v).step.phase = .failed ∧ (s.strumResult v).step.bankSel = s.step.bankSel
          ∧ (s.strumResult v).step.strumFailed = true)
      ∧ (s.strumResult v).step.committed = s.step.committed)

/-- R323, R324, R339: CSIG adds one release, up to 3, and a release that cannot count is ignored and counted. R336, R340: an entry that
runs past ENTRY_TIMEOUT ends short, and after DRAIN_TIMEOUT no run but a vote is left. -/
def Obligations.CollectiveReleases : Prop :=
  (
  ∀ (s : State) (c : CoreId) (t : ThreadId) (f : IFields),
    let e := f.im 11 0
    let k := c.val * 4096 + e
    let n := mapGet 0 s.col.rel k
    Ready s c t [] → f.plain = true → f.noRegs = true → f.im 29 12 = 0 →
    (e < s.entries → n < 3 → s.windowPass e = false →
      Fetches (.csig c t f) s → ∃ u, exec (.csig c t f) s = .next u ∧ mapGet 0 u.col.rel k = n + 1 ∧ (∀ j, j ≠ k → mapGet 0 u.col.rel j = mapGet 0 s.col.rel j)
        ∧ u.thread c t = { fetchedOf s c t with pc := (s.thread c t).pc + 8 } ∧ u.col.runs = s.col.runs ∧ u.mem = s.mem)
    ∧ ((s.entries ≤ e ∨ 3 ≤ n ∨ s.windowPass e = true) →
      Fetches (.csig c t f) s → ∃ u, exec (.csig c t f) s = .next u ∧ u.col = { s.col with csigXs := satAdd 32 s.col.csigXs 1 }
        ∧ u.thread c t = { fetchedOf s c t with pc := (s.thread c t).pc + 8 } ∧ u.mem = s.mem))
  ∧ (
  ∀ (s : State),
    (∀ (q : Fin 4) (r : ColRun), (s.runsOf q).find? (fun (r : ColRun) =>
        r.kind != 4 && decide (r.startedAt + 1000000 * field (s.raw 0xA0004) 31 16 ≤ s.now)) = some r →
      ∃ u, exec (.entryTimeout q) s = .next u ∧ u.col.short = true ∧ u.col.firstShort = (if s.col.short then s.col.firstShort else r.entry)
        ∧ (∀ x, x ∈ u.col.runs → ¬(x.entry = r.entry ∧ x.tag = r.tag)) ∧ u.mem = s.mem)
    ∧ (∀ d, s.col.drains.find? (fun (d : Nat × Nat) => decide (d.2 + 1000000 * field (s.raw 0xA0004) 15 0 ≤ s.now)) = some d →
      ∃ u, exec .drainTimeout s = .next u ∧ u.col.drains = s.col.drains.filter (fun x => x.1 ≠ d.1)
        ∧ (∀ x, x ∈ u.col.runs → x.kind = 4) ∧ u.mem = s.mem))

/-- R318 to R323, R329 to R333: a run that may start is recorded, its sequencer goes on, and what begins at this module is handed to the
router, without memory errors: the chunks of a reduce-scatter, the parts of an all-gather, the vector of a privileged channel. -/
def Obligations.CollectiveStarts : Prop :=
  ∀ (s : State), s.ecc = [] →
    (∀ (a : AxisId) (e : Nat), s.startable a 1 = some e → s.scaleOk (s.ent e).bucket = true →
      let n := s.ent e
      let k : Bucket := mapGet {} s.buckets n.bucket
      let plen := k.len / s.axisLen a
      let base := k.base + s.stepPos a (!n.minus) * plen
      (∀ i, i < plen → i % 256 = 0 → (regionAt s.regions (base + i)).isSome = true
        ∧ s.accRange (linkOf a n.minus % 2) (base + i) 256 = .ok) →
      ∃ u l, exec (.rsRunStart a) s = .next u
        ∧ u.col.runs = s.col.runs ++ [{ s.newRun a e with e := s.effScale n.bucket }] ∧ u.col.next = setAt s.col.next a (e + 1)
        ∧ u.rt.pkts = s.rt.pkts ++ l ∧ l.length = n.pkts ∧ (∀ x, x ∈ l → x.p.kind = 6 ∧ x.p.carrier = true ∧ x.p.src = s.img.coord)
        ∧ u.mem = s.mem)
    ∧ (∀ (a : AxisId) (e : Nat), s.startable a 2 = some e → (∀ r, r ∈ s.col.runs → r.entry = e → r.tag ≠ s.tagNow) →
      let n := s.ent e
      let base := s.agBase n
      let src := if n.flags.testBit 4 then (mapGet {} s.buckets n.bucket : Bucket).result else base + s.pos a * n.len
      (∀ i, i < n.pkts → s.accRange (linkOf a n.minus % 2) (src + i * 256 * n.chunk) (min (256 * n.chunk) (n.len - i * 256 * n.chunk)) = .ok) →
      ∃ u l, exec (.agRunStart a) s = .next u ∧ u.col.runs = s.col.runs ++ [{ s.newRun a e with base := base }]
        ∧ u.col.next = setAt s.col.next a (e + 1) ∧ u.rt.pkts = s.rt.pkts ++ l ∧ l.length = n.pkts
        ∧ (∀ x, x ∈ l → x.p.kind = 7 ∧ x.p.mc = true ∧ x.p.src = s.img.coord) ∧ u.mem = s.mem)
    ∧ (∀ e, s.startable 3 3 = some e → (∀ r, r ∈ s.col.runs → r.entry = e → r.tag ≠ s.tagNow) →
      let n := s.ent e
      let ax := (axisFrom n.axes 0).getD 0
      (n.axes ≠ 0 →
        (n.op ≠ 4 → ∀ i, i < vecPkts n.len → s.accRange 1 (n.addr + 2048 * i) (min 2048 (n.len - 2048 * i)) = .ok) →
        ∃ u l r, exec .scRunStart s = .next u ∧ u.col.runs = s.col.runs ++ [r] ∧ r.entry = e ∧ r.kind = 3 ∧ r.axis = ax
          ∧ u.col.next = setAt s.col.next 3 (e + 1) ∧ u.rt.pkts = s.rt.pkts ++ l
          ∧ l.length = (if s.pos ax = 0 ∧ s.img.coordValid = true then vecPkts n.len else 0)
          ∧ (∀ x, x ∈ l → x.p.kind = 8 ∧ x.p.src = s.img.coord) ∧ u.mem = s.mem)
      ∧ (n.axes = 0 → ∃ u, exec .scRunStart s = .next u ∧ u.col.runs = s.col.runs ∧ u.col.next = setAt s.col.next 3 (e + 1) ∧ u.mem = s.mem))

/-- R161, R162, R332: a vector of a privileged channel that comes up the chain is combined with the local one and goes to the next
position, or from the end of the chain starts back; one that comes back is relayed. R173, R204 to R208, R304, R328, R330, R331: a chunk
that a run takes is added to the local beats and sent on, or, at its last module, its one beat is written as the result; a multicast is
written and sent on unless this is its last module. -/
def Obligations.CollectiveBeats : Prop :=
  (
  ∀ (s s0 : State) (p : Packet) (r : ColRun), s.ecc = [] → s0.runOf p = some r →
    let i := p.pktIndex.toNat
    let here := s.pos r.axis
    let loc := (s0.bufRead 1 r i).2.1
    let op := if r.kind = 4 then 2 else r.op
    (s.scTake true = some (p, s0) → (s0.core 48).ready = true → (s0.bufRead 1 r i).2.2 = false →
      (here + 1 = s.axisLen r.axis → (s0.bufWrite 1 r i (combine op p.payload loc).1).2 = false) →
      ∃ u x, exec .scChainBeat s = .next u ∧ x ∈ u.rt.pkts ∧ x.p.kind = 8 ∧ x.p.payload = (combine op p.payload loc).1
        ∧ x.p.dst = s.img.coord.set r.axis (if here + 1 = s.axisLen r.axis then here - 1 else here + 1)
        ∧ u.rt.ejq = s0.rt.ejq ∧ u.col.hold = s0.col.hold)
    ∧ (s.scTake false = some (p, s0) → (s0.core 0).ready = true →
      ∃ u, exec .scReturnBeat s = .next u ∧ u.rt.ejq = s0.rt.ejq ∧ u.col.hold = s0.col.hold
        ∧ (0 < here → (s0.bufWrite 0 r i p.payload).2 = false → ∃ x, x ∈ u.rt.pkts ∧ x.p.kind = 8 ∧ x.p.payload = p.payload ∧ x.p.dst = s.img.coord.set r.axis (here - 1))))
  ∧ (
  ∀ (s s0 : State) (l : LinkId) (p : Packet) (r : ColRun), s.ecc = [] →
    (s.ejTake 6 l = some (p, s0) → s.classify p (l / 2) = .take r →
      let n := s.ent r.entry
      let k : Bucket := mapGet {} s.buckets n.bucket
      let plen := k.len / s.axisLen n.axis
      let off := p.addr.toNat
      let a := k.base + off
      p.bucket.toNat = n.bucket → p.e = BitVec.ofInt 8 r.e → scaleRes p.e.toInt = false →
      (∀ i, i < p.len / 256 → (regionAt s.regions (a + 256 * i)).isSome = true ∧ s.accRange (l % 2) (a + 256 * i) 256 = .ok) →
      (off / plen ≠ s.pos n.axis →
        ∃ u x, exec (.chunkRx l) s = .next u ∧ x ∈ u.rt.pkts ∧ u.rt.ejq = s0.rt.ejq ∧ u.mem = s.mem
          ∧ x.p.payload = (upto (p.len / 256)).flatMap (fun i => (addBeats (slice p.payload (256 * i) 256) (s.bytes (a + 256 * i) 256)).1)
          ∧ x.p.dst = s.img.coord.set n.axis (s.stepPos n.axis n.minus))
      ∧ (off / plen = s.pos n.axis → p.len = 256 →
        let ra := k.result + (off - s.pos n.axis * plen)
        s.accRange (l % 2) ra 256 = .ok → ra % 256 = 0 → (∀ g, regionAt s.regions ra = some g → g.size % g.w = 0) →
        ∃ u, exec (.chunkRx l) s = .next u ∧ u.rt.ejq = s0.rt.ejq
          ∧ u.bytes ra 256 = (addBeats (slice p.payload 0 256) (s.bytes a 256)).1))
    ∧ (s.ejTake 7 l = some (p, s0) → s.classify p p.mcAxis.toNat = .take r →
      let a := p.addr.toNat
      s.accRange (l % 2) a p.len = .ok → s.oneRegion (a, p.len) = true → s.touchesProg a p.len = false → p.payload.length = p.len →
      a + p.len ≤ dramBase →
      ∃ u, exec (.mcastRx l) s = .next u ∧ u.rt.ejq = s0.rt.ejq ∧ u.bytes a p.len = p.payload
        ∧ (∀ y, y < a ∨ a + p.len ≤ y → u.byte y = s.byte y)
        ∧ (p.dst ≠ s.img.coord → ∃ x, x ∈ u.rt.pkts ∧ x.p = p)))

/-! ## The router -/

/-- R286, R287, R288, R308: the next packet of a running move enters the router at its half with its route fields and its bytes; its
message begins with its first packet. -/
def Obligations.PacketInjection : Prop :=
  ∀ (s : State) (h : HalfId) (c i : Nat) (m : RunMove) (p : Packet),
    s.injectable h = some (c, i, m, p) →
    let d := m.op.d
    (p.dst = d.remote ∧ p.src = s.img.coord ∧ p.srcCore = BitVec.ofNat 7 c)
    ∧ (p.kind = kNotify →
      ∃ u m1, exec (.packetInject h) s = .next u ∧ u.rt.pkts = s.rt.pkts ++ [{ p := p, half := h }] ∧ (u.core c).slot i = some m1
        ∧ m1.note = true ∧ u.mem = s.mem)
    ∧ (p.kind ≠ kNotify → d.get = true → d.put = false →
      ∃ u m1, exec (.packetInject h) s = .next u ∧ u.rt.pkts = s.rt.pkts ++ [{ p := p, half := h }] ∧ (u.core c).slot i = some m1
        ∧ p.kind = kGetReq ∧ p.len ≤ d.msgLen - m.off ∧ (m.off = 0 → m1.msgs.length = m.msgs.length + 1)
        ∧ (if m.off + p.len < d.msgLen then m1.run = m.run ∧ m1.off = m.off + p.len else m1.run = m.run + 1 ∧ m1.off = 0)
        ∧ u.mem = s.mem)
    ∧ (p.kind ≠ kNotify → d.put = true → d.get = false → d.kind = kCopy → s.ecc = [] →
      let a := d.srcAt m.run + m.off
      s.accRange (halfOf c) a p.len = .ok →
      ∃ u, exec (.packetInject h) s = .next u ∧ p.kind = kPutData ∧ u.mem = s.mem
        ∧ u.rt.pkts = s.rt.pkts ++ [{ p := { p with payload := (s.descWhole p a (s.bytes a p.len)).2 }, half := h }]
        ∧ (1 ≤ p.len → a + p.len ≤ s.descAt 0 ∨ s.descAt s.img.descCount ≤ a → (s.descWhole p a (s.bytes a p.len)).2 = s.bytes a p.len))

/-- R284, R285, R298, R300, R302: a packet marked bad is dropped and counted; one for this module is ejected; one that is undeliverable is
counted, and a request is answered with NACK UNREACHABLE; any other that is not bulk takes the port of the lowest remaining axis. R295 to
R297, R294, R301: a routed packet whose link is ACTIVE takes its hop when the downstream VC has the credits it needs; it then uses them and
waits at the link; a packet without them, without its turn or with a port that it may no longer take stays, and may be routed afresh. -/
def Obligations.PacketRoutes : Prop :=
  (
  ∀ (s : State) (i : Nat) (x : RPkt), s.rt.pkts[i]? = some x → x.out = none →
    let p := x.p
    let gone := fun (u : State) => delAt s.rt.pkts i = u.rt.pkts
    (p.bad = true → ∃ u, exec (.packetRoute i) s = .next u ∧ gone u ∧ u.raw 0x90074 = BitVec.ofNat 32 (satAdd 32 (s.raw 0x90074).toNat 1)
      ∧ u.rt.ejq = s.rt.ejq ∧ u.mem = s.mem)
    ∧ (p.bad = false → s.ejects x = true → p.col = false → p.kind ≠ kGetReq → p.kind ≠ kScalar →
      ∃ u b, exec (.packetRoute i) s = .next u ∧ gone u ∧ u.rt.ejq = s.rt.ejq ++ [{ x with p := { p with cmark := b }, at_ := s.now }]
        ∧ (p.cmark = true → b = true) ∧ (p.bulk = false → b = p.cmark) ∧ u.mem = s.mem)
    ∧ (p.bad = false → s.ejects x = false → p.kind.toNat < 3 → p.mc = false → s.awaitsShift x = false →
      (s.entryOf (s.destNo p.dst)).getLsbD 0 = false →
      ∃ u y, exec (.packetRoute i) s = .next u ∧ u.rt.pkts = delAt s.rt.pkts i ++ [y] ∧ y.p.kind = kNack ∧ y.p.status = 4 ∧ y.p.dst = p.src
        ∧ y.p.msgTag = p.msgTag ∧ y.p.pktIndex = p.pktIndex ∧ y.p.srcCore = p.srcCore ∧ y.half = x.half
        ∧ u.raw (0x90050 + 4 * p.vc.toNat) = BitVec.ofNat 32 (satAdd 32 (s.raw (0x90050 + 4 * p.vc.toNat)).toNat 1) ∧ u.mem = s.mem)
    ∧ (∀ (a : AxisId) (m : Bool), p.bad = false → s.ejects x = false → x.via = none → p.bulk = false → s.inShape p.dst = true →
      (s.entryOf (s.destNo p.dst)).getLsbD 0 = true → (∀ b, b < a.val → s.pos b = p.dst.get b) → s.pos a ≠ p.dst.get a →
      m = !(dirOk (s.img.wrap.getLsbD a) (s.axisLen a) (s.pos a) (p.dst.get a) false) → s.productive (linkOf a m) p.dst = true →
      exec (.packetRoute i) s
        = .next { s with rt := { s.rt with pkts := setAt s.rt.pkts i { x with out := some (linkOf a m, p) } } }))
  ∧ (
  ∀ (s : State) (i : Nat) (x : RPkt) (l : Nat) (p : Packet), s.rt.pkts[i]? = some x → x.out = some (l, p) →
    let v := p.vc.toNat
    let n := (s.link l).credits v
    let enters := if p.mc = true then p.src = s.img.coord else ∀ j, x.inLink = some j → j / 2 ≠ l / 2
    (s.mayTake l p = true → (l % 2 = x.half ∨ s.bridge.dataUp = true) →
      (p.vc = 3 ∨ (s.vc3First l = false ∧ ∃ left, s.turnOf l = some (v, left))) →
      (p.bulk = true → (if p.esc then p.flits else p.flits + 130) ≤ n) → (p.bulk = false → enters → (if p.vc = 2 then 260 else 66) ≤ n) →
      (p.bulk = false → ¬enters → p.flits ≤ n) →
      ∃ u b, exec (.packetAdvance i) s = .next u ∧ u.rt.pkts = delAt s.rt.pkts i ∧ u.rt.ejq = s.rt.ejq ∧ u.mem = s.mem
        ∧ (u.link l).cred = setAt (s.link l).cred v (n - p.flits) ∧ (u.link l).txq = (s.link l).txq ++ ({ p with cmark := b } : Packet).txFlits x
        ∧ (p.cmark = true → b = true) ∧ (p.bulk = false → b = p.cmark)
        ∧ (∀ j, x.inLink = some j → x.paid = false → (s.link j).owe.length = 4 →
            nth 0 (u.link j).owe x.p.vc.toNat = nth 0 (s.link j).owe x.p.vc.toNat + x.p.flits)
        ∧ (∀ j, j ≠ l → some j ≠ x.inLink → u.link j = s.link j))
    ∧ (n < (if p.bulk && !p.esc then p.flits + 130 else p.flits) → (p.bulk = true ∨ ¬enters) → exec (.packetAdvance i) s = .next s)
    ∧ (s.mayTake l p = false → exec (.packetAdvance i) s = .next s)
    ∧ (p.vc ≠ 3 → (s.vc3First l = true ∨ ∀ left, s.turnOf l ≠ some (v, left)) → exec (.packetAdvance i) s = .next s)
    ∧ ((s.link l).st ≠ .shifting →
      exec (.packetRoute i) s = .next (s.routeNow i { x with p := { x.p with esc := x.p.esc || p.esc }, out := none })))

/-- R124, R287, R288, R292, R315: what a PUT_DATA, a GET_REQ and a NOTIFY do at their target, and what answers them. -/
def Obligations.RequestsAtTheTarget : Prop :=
  ∀ (s : State) (x : RPkt) (r : List RPkt), s.rt.ejq = x :: r →
    let p := x.p
    let a := p.addr.toNat
    let answers := fun (u : State) (k : BitVec 4) (st : BitVec 8) (l : List Byte) => u.rt.ejq = r ∧ ∃ y, u.rt.pkts = s.rt.pkts ++ [y]
      ∧ y.half = x.half ∧ y.out = none ∧ y.p.kind = k ∧ y.p.status = st ∧ y.p.dst = p.src ∧ y.p.src = s.img.coord
      ∧ y.p.srcCore = p.srcCore ∧ y.p.msgTag = p.msgTag ∧ y.p.pktIndex = p.pktIndex ∧ y.p.pktCount = p.pktCount ∧ y.p.payload = l
    let sound := s.pstate ≠ .rest ∧ s.oneRegion (a, p.len) = true ∧ 1 ≤ p.len ∧ s.accRange x.half a p.len = .ok ∧ s.ecc = []
    let bad := s.pstate ≠ .rest ∧ 1 ≤ p.len ∧ s.oneRegion (a, p.len) = false
    (p.kind = kPutData → s.heldByCommit a p.len = false →
      (sound → s.touchesProg a p.len = false → s.closedReq a p.len = false → p.payload.length = p.len → a + p.len ≤ dramBase →
        ∃ u, exec .putDataRx s = .next u ∧ answers u kAck 0 [] ∧ u.bytes a p.len = p.payload
          ∧ (∀ y, y < a ∨ a + p.len ≤ y → u.byte y = s.byte y) ∧ u.cores = s.cores)
      ∧ (bad → ∃ u, exec .putDataRx s = .next u ∧ answers u kNack 1 [] ∧ u.mem = s.mem)
      ∧ (sound → (s.touchesProg a p.len = true ∨ s.closedReq a p.len = true) →
          ∃ u, exec .putDataRx s = .next u ∧ answers u kNack 2 [] ∧ u.mem = s.mem)
      ∧ (s.pstate = .rest → ∃ u, exec .putDataRx s = .next u ∧ answers u kNack 6 [] ∧ u.mem = s.mem))
    ∧ (p.kind = kGetReq →
      (sound → ∃ u, exec .getReqRx s = .next u ∧ answers u kGetResp 0 (s.descWhole p a (s.bytes a p.len)).2 ∧ u.mem = s.mem
        ∧ (a + p.len ≤ s.descAt 0 ∨ s.descAt s.img.descCount ≤ a → (s.descWhole p a (s.bytes a p.len)).2 = s.bytes a p.len))
      ∧ (bad → ∃ u, exec .getReqRx s = .next u ∧ answers u kNack 1 [] ∧ u.mem = s.mem))
    ∧ (p.kind = kNotify → field p.notify 14 8 < 96 →
      let c := field p.notify 14 8
      let n := field p.notify 3 0
      (halfOf c = x.half ∨ s.bridge.dataUp = true) → (s.half (halfOf c)).inReset = false →
      ∃ u, exec .notifyRx s = .next u ∧ answers u kAck 0 [] ∧ u.mem = s.mem
        ∧ mapGet 0 (u.core c).rc n = satAdd 32 (mapGet 0 (s.core c).rc n) 1
        ∧ (∀ j, j ≠ n → mapGet 0 (u.core c).rc j = mapGet 0 (s.core c).rc j) ∧ (∀ d, d ≠ c → u.core d = s.core d))
    ∧ (∀ l : LinkId, p.kind = kMgmt → x.inLink = some l.val → exec (.mgmtRx l) s = .next { s with rt := { s.rt with ejq := r } })

/-- R287, R288: what an ACK, a NACK and a GET_RESP do at the source of the message that they answer: it counts them, and a GET writes the
bytes where its descriptor says; a GET refused BUSY waits GET_RETRY and is not counted. No answer here carries an echo. R288, R291, R308: a
message that is late ends its move with an error; a GET_REQ refused BUSY goes out again when due; a limiter's rate rises by AI_STEP after
AI_PERIOD, no further than the port rate, and an echo lowers it, never below RATE_MIN, unless it fell within the hold time. -/
def Obligations.AnswersAndTimers : Prop :=
  (
  ∀ (s : State) (x : RPkt) (r : List RPkt) (c i : Nat) (m : RunMove) (g : Msg),
    s.rt.ejq = x :: r → s.msgOf x.p = some (c, i, m, g) → s.older x.p = false → x.at_ ≤ g.sentAt + s.msgLimit → s.reaches x = true →
    x.p.echo = false → x.p.cmark = false →
    let d := m.op.d
    let counted := fun (u : State) (e : Bool) => u.rt.ejq = r ∧ (∀ k, k ≠ c → u.core k = s.core k)
      ∧ ∃ m1, (u.core c).slot i = some m1 ∧ m1.op = m.op ∧ m1.run = m.run ∧ m1.err = (m.err || e)
        ∧ (g.answered + 1 = g.count → ∀ z, z ∈ m1.msgs → z.run ≠ g.run)
        ∧ (g.answered + 1 ≠ g.count → ({ g with answered := g.answered + 1 } : Msg) ∈ m1.msgs)
        ∧ (m1.msgs = [] → m.run = d.msgs → (d.notify.getLsbD 15 = false ∨ m.note = true ∨ (m.err || e) = true) → m1.done = true)
    (x.p.kind = kAck → ∃ u, exec .ackRx s = .next u ∧ counted u false ∧ u.mem = s.mem)
    ∧ (x.p.kind = kNack → (x.p.status ≠ 5 ∨ d.get = false) → ∃ u, exec .nackRx s = .next u ∧ counted u true ∧ u.mem = s.mem)
    ∧ (x.p.kind = kNack → x.p.status = 5 → d.get = true →
      ∃ u m1, exec .nackRx s = .next u ∧ u.rt.ejq = r ∧ (u.core c).slot i = some m1 ∧ m1.err = m.err ∧ m1.msgs.length = m.msgs.length
        ∧ ({ g with retry := g.retry ++ [(x.p.pktIndex.toNat, s.now + 1000 * field (s.raw 0x90030) 15 8)] } : Msg) ∈ m1.msgs ∧ u.mem = s.mem)
    ∧ (x.p.kind = kGetResp → d.kind = kCopy → s.heldByCommit d.dstSpan.1 d.dstSpan.2 = false → s.ecc = [] →
      let a := d.dstAt g.run + x.p.pktIndex.toNat * g.pmax
      let n := x.p.payload.length
      1 ≤ n → n ≤ 512 → s.accRange (halfOf c) a n = .ok → s.closedReq a n = false → a + n ≤ dramBase →
      ∃ u, exec .getRespRx s = .next u ∧ counted u false ∧ u.bytes a n = x.p.payload ∧ ∀ y, y < a ∨ a + n ≤ y → u.byte y = s.byte y))
  ∧ (
  (∀ (s : State) (c : CoreId) (i : SlotId) (m : RunMove), (s.core c).slot i = some m → m.stopped = false →
    (∃ x, x ∈ m.msgs ∧ x.sentAt + 1000000 * field (s.raw 0x90030) 27 16 < s.now ∧ s.inTime c i x = false) →
    ∃ u m1, exec (.msgTimeout c i) s = .next u ∧ (u.core c).slot i = some m1 ∧ m1.done = true ∧ m1.err = true ∧ m1.msgs = [] ∧ u.mem = s.mem)
  ∧ (∀ (s : State) (c : CoreId) (i : SlotId) (m : RunMove) (x : Msg) (k t : Nat),
    (s.core c).slot i = some m → m.stopped = false → s.moveRuns c = true → m.msgs = [x] → x.retry = [(k, t)] → t ≤ s.now →
    s.inShape m.op.d.remote = false ∨ m.op.d.vc ≠ 0 →
    ∃ u m1 y, exec (.getRetryTimer c i) s = .next u ∧ u.rt.pkts = s.rt.pkts ++ [y] ∧ y.p.kind = kGetReq ∧ y.p.dst = m.op.d.remote
      ∧ y.p.pktIndex = BitVec.ofNat 16 k ∧ y.p.msgTag = msgTag i x.run ∧ y.half = halfOf c ∧ (u.core c).slot i = some m1
      ∧ m1.msgs = [{ x with retry := [] }] ∧ u.mem = s.mem)
  ∧ (∀ (s : State) (h : HalfId) (n : Fin 6144),
    let k : Limiter := mapGet {} s.rt.lim (limKey h n)
    k.rate < 65536 → k.since + 1000 * field (s.raw 0x90034) 7 0 ≤ s.now →
    ∃ u, exec (.rateIncreaseTimer h n) s = .next u ∧ { u with rt := { u.rt with lim := s.rt.lim } } = s
      ∧ (mapGet {} u.rt.lim (limKey h n) : Limiter).rate = min (k.rate + field (s.raw 0x90038) 31 16) 65536
      ∧ (mapGet {} u.rt.lim (limKey h n) : Limiter).since = s.now
      ∧ ∀ j, j ≠ limKey h n → mapGet {} u.rt.lim j = (mapGet {} s.rt.lim j : Limiter))
  ∧ (∀ (k : Limiter) (now md hold rmin : Nat), k.inc = none →
    ((∀ t, k.lastDec = some t → t + hold ≤ now) → (k.echoed now md hold rmin).rate = max (k.rate - k.rate / 2 ^ md) rmin)
    ∧ (∀ t, k.lastDec = some t → now < t + hold → (k.echoed now md hold rmin).rate = k.rate)))

/-! ## Links -/

/-- R261: what a group says goes into its control word and back, with a CRC that is good. R261, R262, R270, R294: on a link that exchanges
groups, a group with a bad CRC asks for a resend and is counted; the next in order is accepted with its credits, and a whole packet goes to
the router, in QUARANTINE only one of MGMT; one that was accepted before is ignored; one that skips is not accepted; an ACK drops what it
covers, a NAK has the rest sent again. R261, R262, R266: what a link sends: the groups to resend first, then up to 8 waiting flits under
the next number with the credits owed, kept until they are acknowledged, striped over the lanes in turn; an UPSHIFT where packets wait at
the low rate; an ACK within 0.25 µs. -/
def Obligations.LinkGroups : Prop :=
  (
  ∀ (g : Group), g.flits.length = 8 → g.credit.length = 4 → (∀ c, c ∈ g.credit → c < 256) → g.wire.crcOk = true ∧ g.wire.group = g)
  ∧ (
  ∀ (s : State) (l : LinkId) (w : GroupWire), (s.link l).st.carries = true →
    let k := s.link l
    let g := w.group
    let only := fun (u : State) => (∀ j, j ≠ l.val → u.link j = s.link j) ∧ u.mem = s.mem ∧ u.rt.ejq = s.rt.ejq
    let fs := g.data
    (w.crcOk = false → ∃ u, exec (.linkGroupRx l w.ctl w.flits) s = .next u ∧ only u ∧ u.link l = { k with nak := true } ∧ u.rt = s.rt
      ∧ u.raw (aLnk l 0x030) = BitVec.ofNat 32 (satAdd 32 (s.raw (aLnk l 0x030)).toNat 1))
    ∧ (w.crcOk = true → (g.ackKind = .none ∨ g.ackKind = .res) →
      (g.seq ≠ k.rxSeq + 1 → (k.rxSeq - g.seq).toNat < 2048 → exec (.linkGroupRx l w.ctl w.flits) s = .next s)
      ∧ (g.seq ≠ k.rxSeq + 1 → 2048 ≤ (k.rxSeq - g.seq).toNat →
          ∃ u, exec (.linkGroupRx l w.ctl w.flits) s = .next u ∧ only u ∧ u.link l = { k with nak := true } ∧ u.rt = s.rt)
      ∧ (g.seq = k.rxSeq + 1 → k.rxFlits = [] → g.upshift = false →
        let cred := (upto 4).map fun v => min (bufFlits v) (nth 0 k.cred v + nth 0 g.credit v)
        (fs = [] → ∃ u, exec (.linkGroupRx l w.ctl w.flits) s = .next u ∧ only u ∧ u.rt = s.rt
          ∧ u.link l = { k with rxSeq := g.seq, peerLow := g.lowrateOk, cred := cred })
        ∧ (∀ f r, fs = f :: r → flitsNeeded f = fs.length →
          (k.st = .quarantine → (decodePacket fs).kind = kMgmt) →
          ∃ u, exec (.linkGroupRx l w.ctl w.flits) s = .next u ∧ only u
            ∧ u.rt.pkts = s.rt.pkts ++ [{ p := decodePacket fs, half := l.val % 2, inLink := some l.val }]
            ∧ u.link l = { k with rxSeq := g.seq, peerLow := g.lowrateOk, cred := cred, dataAt := s.now, rxFlits := [] })
        ∧ (∀ f r, fs = f :: r → flitsNeeded f = fs.length → k.st = .quarantine → (decodePacket fs).kind ≠ kMgmt →
          ∃ u, exec (.linkGroupRx l w.ctl w.flits) s = .next u ∧ only u ∧ u.rt.pkts = s.rt.pkts ∧ (u.link l).rxFlits = []))
      ∧ (g.seq = k.rxSeq + 1 → g.upshift = true → k.st = .active → k.rate = 2 → fs = [] →
          ∃ u, exec (.linkGroupRx l w.ctl w.flits) s = .next u ∧ only u ∧ (u.link l).st = .shifting ∧ (u.link l).shift = k.trained))
    ∧ (∀ (a b : List SentGroup) (y : SentGroup), k.replay = a ++ y :: b → (∀ z, z ∈ a → z.seq ≠ g.ack) → y.seq = g.ack →
      w.crcOk = true →
      (g.ackKind = .ack → ∃ u, exec (.linkGroupRx l w.ctl w.flits) s = .next u ∧ (u.link l).replay = b ∧ (u.link l).fails = 0 ∧ u.mem = s.mem)
      ∧ (g.ackKind = .nak → k.resend < b.length → b ≠ [] →
          ∃ u, exec (.linkGroupRx l w.ctl w.flits) s = .next u ∧ (u.link l).replay = b ∧ (u.link l).resend = b.length ∧ u.mem = s.mem)))
  ∧ (
  ∀ (s : State) (l : LinkId),
    let k := s.link l
    let others := fun (u : State) => (∀ j, j ≠ l.val → u.link j = s.link j) ∧ u.mem = s.mem ∧ u.rt = s.rt
    let sent := fun (seq : BitVec 12) (up : Bool) (credit : List Nat) (fs : List Flit) => ({
      seq := seq, ackKind := if k.nak then .nak else .ack, ack := k.rxSeq, credit := credit, upshift := up, lowrateOk := s.wantsLow l
      flits := fs ++ List.replicate (8 - fs.length) idleFlit } : Group).wire
    (k.st = .active → k.resend = 0 → k.rate ≠ 2 → k.upOwn = false → k.replay.length < 2048 → (∀ c, c ∈ k.owe → c ≤ 255) →
      ∃ u, exec (.linkGroupSend l) s = .next u ∧ others u ∧ (u.link l).txq = k.txq.drop 8 ∧ (u.link l).txSeq = k.txSeq + 1
        ∧ (u.link l).replay = k.replay ++ [⟨k.txSeq, k.txq.take 8, k.owe, false⟩]
        ∧ (u.link l).lastTx = sent k.txSeq false k.owe ((k.txq.take 8).map (·.f)) ∧ (∀ c, c ∈ (u.link l).owe → c = 0)
        ∧ (u.link l).txLanes = stripe k.carriers k.lane 8 ∧ (u.link l).lane = (k.lane + 8) % (lanesOf k.carriers).length)
    ∧ (k.st.carries = true → 1 ≤ k.resend → k.resend ≤ k.replay.length →
      ∃ u g, exec (.linkGroupSend l) s = .next u ∧ others u ∧ k.replay[k.replay.length - k.resend]? = some g
        ∧ (u.link l).lastTx = sent g.seq g.up g.credit (g.flits.map (·.f))
        ∧ (u.link l).resend = k.resend - 1 ∧ (u.link l).replay = k.replay ∧ (u.link l).txq = k.txq)
    ∧ (k.st = .active → k.resend = 0 → k.replay.length < 2048 → (k.rate = 2 ∧ k.txq ≠ [] ∨ k.upOwn = true) →
      ∃ u, exec (.linkGroupSend l) s = .next u ∧ others u ∧ (u.link l).upOwn = false ∧ (u.link l).txq = k.txq
        ∧ (u.link l).lastTx = sent k.txSeq true (k.owe.map fun c => min c 255) []
        ∧ (k.rate = 2 → (u.link l).st = .shifting ∧ (u.link l).shift = (if k.failed = 0 then 0 else 1)))
    ∧ (k.st.carries = true → k.ackAt + 250 ≤ s.now →
      ∃ u, exec (.linkAckTimer l) s = .next u ∧ others u ∧ (u.link l).ackAt = s.now ∧ (u.link l).replay = k.replay
        ∧ (u.link l).lastTx = sent (k.txSeq - 1 - BitVec.ofNat 12 k.replay.length) false [0, 0, 0, 0] []))

/-- R263, R265, R266, R267, R303: a lane that fails degrades the link to 8 lanes at version 1.1 and above, or takes it DOWN with what it
held lost and what waits behind it routed again; both ends willing and idle go to the low rate; the end of a rate change gives the lanes of
the new rate and resends what was held, and an UPSHIFT that waited follows; loss of signal takes the link DOWN. -/
def Obligations.LinkLanesAndRates : Prop :=
  ∀ (s : State) (l : LinkId),
    let k := s.link l
    let down := fun (i : Instr) => ∃ u, exec i s = .next u ∧ (u.link l).st = .down ∧ (u.link l).replay = [] ∧ (u.link l).txq = []
      ∧ (u.link l).since = s.now ∧ (∀ j, j ≠ l.val → u.link j = s.link j) ∧ u.mem = s.mem ∧ u.rt.pkts = s.rt.pkts ++ k.unsent
      ∧ u.raw (aLnk l 0x044) = BitVec.ofNat 32 (satAdd 32 (s.raw (aLnk l 0x044)).toNat k.waiting.length)
    (∀ lane : SlotId, k.st = .active →
      let b := BitVec.ofNat 16 (2 ^ lane.val)
      let k1 := { k with failed := k.failed ||| b, good := k.good &&& (~~~ b) }
      (popcount 16 k1.lanesOk.toNat < 8 ∨ k.ver < 0x11 → down (.laneFail l lane))
      ∧ (8 ≤ popcount 16 k1.lanesOk.toNat → 0x11 ≤ k.ver → k.active.getLsbD lane = true →
          ∃ u, exec (.laneFail l lane) s = .next u ∧ u.link l = { k1 with st := .shifting, shift := 1, since := s.now }
            ∧ (∀ j, j ≠ l.val → u.link j = s.link j) ∧ { u with links := s.links } = s))
    ∧ (k.st = .shifting → down (.shiftComplete l false))
    ∧ (k.st = .shifting → k.upAfter = false → k.upOwn = false → k.reident = false →
      ∃ u, exec (.shiftComplete l true) s = .next u ∧ (u.link l).st = .active ∧ (u.link l).rate = k.shift
        ∧ (u.link l).active = k.lanesAt k.shift ∧ (u.link l).resend = k.replay.length ∧ (u.link l).replay = k.replay
        ∧ (∀ j, j ≠ l.val → u.link j = s.link j) ∧ u.mem = s.mem)
    ∧ (k.st = .shifting → k.upOwn = true → k.replay.length < 2048 →
      ∃ u, exec (.shiftComplete l true) s = .next u ∧ (u.link l).upOwn = false ∧ (u.link l).replay.length = k.replay.length + 1
        ∧ (u.link l).st = (if k.shift = 2 then .shifting else .active) ∧ (∀ j, j ≠ l.val → u.link j = s.link j) ∧ u.mem = s.mem)
    ∧ (k.st = .active → k.rate ≠ 2 → 0x12 ≤ k.ver → s.wantsLow l = true → k.peerLow = true →
      k.dataAt + field (s.raw (aLnk l 0x020)) 7 0 * 100000 ≤ s.now →
      ∃ u, exec (.lowrateIdleExpire l) s = .next u ∧ u.link l = { k with st := .shifting, shift := 2, since := s.now }
        ∧ (∀ j, j ≠ l.val → u.link j = s.link j) ∧ { u with links := s.links } = s)
    ∧ ((k.st = .active ∨ k.st = .quarantine ∨ k.st = .shifting) → down (.linkSignalLoss l))

/-- R267, R280: training: lock with at least 8 good lanes begins the identity exchange; no lock in 100 ms is recorded, reported when the
cause is new, and tried again after 1 ms; a link DOWN trains after 1 ms; IDENT is sent every 10 µs, and none from the peer in 1 ms ends the
exchange. R267, R277: a link that is drained, or has waited 100 µs, is PARKED with what is left counted as lost, or trains where a
LINK_REJOIN waits; a notice parks the peer's side, and its lanes active again train the link. -/
def Obligations.LinkTrainingAndParking : Prop :=
  (
  ∀ (s : State) (l : LinkId),
    let k := s.link l
    let frame := fun (u : State) => (∀ j, j ≠ l.val → u.link j = s.link j) ∧ { u with links := s.links, ev := s.ev, regs := s.regs } = s
    let trains := fun (u : State) => (u.link l).st = .training ∧ (u.link l).since = s.now ∧ (u.link l).retryAt = none
      ∧ (u.link l).attempts = satAdd 16 k.attempts 1 ∧ (u.link l).mine = none ∧ (u.link l).theirs = none
    (∀ good : BitVec 16, k.st = .training → k.retryAt = none → 8 ≤ popcount 16 good.toNat →
      ∃ u, exec (.trainLock l good) s = .next u ∧ frame u ∧ (u.link l).st = .ident ∧ (u.link l).good = good ∧ (u.link l).since = s.now
        ∧ (u.link l).identAt = s.now)
    ∧ (∀ why : TrainFail, k.st = .training → k.retryAt = none → k.since + 100000000 ≤ s.now →
      ∃ u, exec (.trainLockTimeout l why) s = .next u ∧ frame u ∧ (u.link l).st = .training ∧ (u.link l).lastFail = why.code
        ∧ (u.link l).retryAt = some (s.now + 1000000) ∧ (why.code = k.lastFail → u.ev = s.ev))
    ∧ (((k.st = .training ∧ ∃ t, k.retryAt = some t ∧ t ≤ s.now) ∨ (k.st = .down ∧ k.since + 1000000 ≤ s.now)) →
      ∃ u, exec (.trainRetryTimer l) s = .next u ∧ frame u ∧ trains u)
    ∧ (k.st = .ident → k.identAt ≤ s.now →
      ∃ u, exec (.identSendTimer l) s = .next u ∧ frame u ∧ (u.link l).identAt = s.now + 10000
        ∧ (u.link l).outbox.head? = some ⟨.message, (s.myIdent l).encode⟩
        ∧ (∀ r, k.mine = some r → (u.link l).outbox = [⟨.message, (s.myIdent l).encode⟩, ⟨.message, verdictBits r k.ver⟩]))
    ∧ (k.st = .ident → k.since + 1000000 ≤ s.now → k.heardAt + 1000000 ≤ s.now →
      ∃ u, exec (.identTimeout l) s = .next u ∧ trains u ∧ (u.link l).lastFail = 4 ∧ u.mem = s.mem
        ∧ (∀ j, j ≠ l.val → u.link j = s.link j) ∧ (k.replay = [] → k.txq = [] → frame u)))
  ∧ (
  ∀ (s : State) (l : LinkId),
    let k := s.link l
    let others := fun (u : State) => (∀ j, j ≠ l.val → u.link j = s.link j) ∧ u.mem = s.mem
    let back := { s.rt with pkts := s.rt.pkts ++ k.unsent }
    (k.st = .parking → ((k.replay = [] ∧ k.txq = []) ∨ k.since + 100000 ≤ s.now) →
      ∃ u, exec (.parkDrained l) s = .next u ∧ others u ∧ u.rt = back ∧ (u.link l).st = (if k.pend then .training else .parked)
        ∧ (u.link l).replay = [] ∧ (u.link l).pend = false ∧ (0x13 ≤ k.ver → (u.link l).outbox.length = 1)
        ∧ u.raw (aLnk l 0x044) = BitVec.ofNat 32 (satAdd 32 (s.raw (aLnk l 0x044)).toNat k.waiting.length))
    ∧ (k.st ≠ .off → k.st ≠ .parking → k.st ≠ .parked → k.st ≠ .peerParked →
      ∃ u, exec (.parkNoticeRx l) s = .next u ∧ others u ∧ u.rt = back ∧ (u.link l).st = .peerParked ∧ (u.link l).replay = [])
    ∧ (k.st = .parking →
      ∃ u, exec (.parkNoticeRx l) s = .next u ∧ others u ∧ ((u.link l).st = .parking ∨ (u.link l).st = .peerParked))
    ∧ (k.st = .peerParked →
      ∃ u, exec (.peerLanesActive l) s = .next u ∧ others u ∧ { u with links := s.links } = s ∧ (u.link l).st = .training))

/-- R269: the reason for which a peer's IDENT fails is that of the first check, in the order of the table. R264, R267, R269 to R271: a
peer's IDENT is checked and answered with IDENT and VERDICT; the link is in QUARANTINE with the reason of its own check, with reason 8
where only the peer's verdict fails, and ACTIVE on its lanes when both pass; an IDENT on a link that is up begins a new exchange. -/
def Obligations.LinkIdentity : Prop :=
  (
  ∀ (s : State) (l : LinkId) (i : Ident),
    let m := s.myIdent l
    let v := min m.vmax.toNat i.vmax.toNat
    let meet := m.vmin.toNat ≤ v ∧ i.vmin.toNat ≤ v
    let opposite := i.port.toNat = (if l.val % 2 = 0 then l.val + 1 else l.val - 1)
    let near := some i.coord = s.neighbour l 1 ∨ some i.coord = s.neighbour l 2
    (¬meet → s.checkIdent l i = 2)
    ∧ (meet → (m.strapFault = true ∨ i.strapFault = true) → s.checkIdent l i = 7)
    ∧ (meet → m.strapFault = false → i.strapFault = false →
      ((m.coordValid = false ∨ i.coordValid = false) → s.checkIdent l i = 1)
      ∧ (m.coordValid = true → i.coordValid = true →
        (m.jobTag ≠ i.jobTag → s.checkIdent l i = 4)
        ∧ (m.jobTag = i.jobTag →
          (¬opposite → s.checkIdent l i = 5)
          ∧ (opposite →
            (¬near → s.checkIdent l i = 6)
            ∧ (near → s.checkIdent l i = if v < m.minv.toNat ∨ v < i.minv.toNat then 3 else 0))))))
  ∧ (
  ∀ (s : State) (l : LinkId) (i : Ident), (s.link l).st = .ident →
    let k := s.link l
    let r := s.checkIdent l i
    let v := (agreed (s.myIdent l) i).getD 0
    let others := fun (u : State) => (∀ j, j ≠ l.val → u.link j = s.link j) ∧ u.mem = s.mem
    let answer := fun (n : Nat) => [(⟨.message, (s.myIdent l).encode⟩ : Flit), ⟨.message, verdictBits n v⟩]
    (r ≠ 0 → ∃ u, exec (.identRx l i) s = .next u ∧ others u ∧ (u.link l).st = .quarantine ∧ (u.link l).qreason = r
      ∧ (u.link l).peer = some i ∧ (u.link l).mine = some r ∧ (u.link l).outbox = answer r)
    ∧ (r = 0 → k.theirs = none → ∃ u, exec (.identRx l i) s = .next u ∧ others u ∧ u.rt = s.rt ∧ (u.link l).st = .ident
      ∧ (u.link l).peer = some i ∧ (u.link l).mine = some 0 ∧ (u.link l).ver = min 0x13 i.vmax.toNat ∧ (u.link l).heardAt = s.now
      ∧ (u.link l).outbox = answer 0)
    ∧ (∀ (why ver : Byte), k.mine = some 0 → why ≠ 0 →
      ∃ u, exec (.verdictRx l why ver) s = .next u ∧ others u ∧ (u.link l).st = .quarantine ∧ (u.link l).qreason = 8)
    ∧ (∀ ver : Byte, k.mine = some 0 →
      let n := popcount 16 k.lanesOk.toNat
      let again := fun (why : Nat) => ∃ u, exec (.verdictRx l 0 ver) s = .next u ∧ others u ∧ (u.link l).st = .training
        ∧ (u.link l).lastFail = why ∧ (u.link l).retryAt = some (s.now + 1000000)
      (8 ≤ n → (n = 16 ∨ 0x11 ≤ k.ver) → ∃ u, exec (.verdictRx l 0 ver) s = .next u ∧ others u ∧ u.rt = s.rt ∧ (u.link l).st = .active
        ∧ (u.link l).rate = (if n < 16 then 1 else 0) ∧ (u.link l).active = k.lanesAt (if n < 16 then 1 else 0) ∧ (u.link l).attempts = 0)
      ∧ (8 ≤ n → n < 16 → k.ver < 0x11 → again 5) ∧ (n < 8 → again 3)))
  ∧ (
  ∀ (s : State) (l : LinkId) (i : Ident),
    let st := (s.link l).st
    ((st = .active ∨ st = .quarantine) → exec (.identRx l i) s = exec (.identRx l i) (s.exchangeLink l))
    ∧ (st = .peerParked → exec (.identRx l i) s = .next (s.trainLink l))
    ∧ (st ≠ .ident → st ≠ .active → st ≠ .quarantine → st ≠ .peerParked → exec (.identRx l i) s = .next s))

/-! ## Ownership and commands -/

/-- R360, R361, R369, R371: who may command: HELD, then NOT_OWNER, then STALE_EPOCH, each counted, and nothing else done; a command waits
while another is being carried out. R357: an answer goes to the session that asked, is numbered and kept. -/
def Obligations.CommandsAreCheckedAndAnswered : Prop :=
  (∀ (s : State) (hd : Head) (c : Cmd) (r : List Cmd) (i : Instr) (op : Nat),
    (i = .renew hd ∧ op = opRenew) ∨ (i = .release hd ∧ op = opRelease) ∨ (i = .fabricQuiesce hd ∧ op = opQuiesce)
      ∨ (i = .fabricResume hd ∧ op = opResume) →
    let o := s.ctl.own
    let refuses := fun (st : Nat) => exec i s = .next (((left s r).bump 0x10040).respond c st)
    let owner := o.owned = true ∧ o.sess = some c.slot ∧ o.sid = c.sid ∧ (s.sess c.slot).id = c.sid
    (AtFront s hd op [] c r →
      (s.isHeld = true → refuses 5) ∧ (s.isHeld = false → ¬owner → refuses 3)
      ∧ (s.isHeld = false → owner → o.epoch ≠ c.epoch → refuses 4))
    ∧ (s.ctl.pend ≠ none → exec i s = .next s))
  ∧ (∀ (s : State) (c : Cmd) (st : Nat) (data : List Byte),
    let x := s.sess c.slot
    let m : Resp := ⟨c.op, c.reqId, st, s.ctl.own.epoch, data⟩
    (¬(x.st = .open_ ∧ x.id = c.sid) → s.respond c st data = s)
    ∧ (x.st = .open_ → x.id = c.sid → x.cout.toNat ≠ 2 ^ 64 - 1 →
      let u := s.respond c st data
      u.ctl.out = s.ctl.out ++ [.resp x.peer (x.cout + 1) m]
        ∧ u.sess c.slot = { x with cout := x.cout + 1, kept := lastN 64 (x.kept ++ [m]) }
        ∧ (∀ j, j ≠ c.slot → u.sess j = s.sess j) ∧ { u with ctl := { u.ctl with sess := s.ctl.sess, out := s.ctl.out } } = s))

/-- R364 to R367, R369: what CLAIM, RENEW, HANDOVER, RELEASE, RECOVER and the end of the lease send to the follower: the new record; it
takes effect, and the command is answered, when the follower acknowledges it, and not when it does not within 100 µs: the module is then
HELD. -/
def Obligations.OwnerRecord : Prop :=
  ∀ (s : State) (hd : Head) (c : Cmd) (r : List Cmd),
    let o := s.ctl.own
    let lease := fun (n : Nat) => if n = 0 then field (s.raw 0x10008) 11 0 else n
    let fresh := fun (slot n : Nat) =>
      ({ owned := true, epoch := o.epoch + 1, key := some (s.sess slot).key, sess := some slot, sid := (s.sess slot).id
         deadline := s.now + lease n * 1000000000, leaseS := n } : OwnRec)
    let mine := o.key = none ∨ o.key = some (s.sess c.slot).key
    let none_ := { o with owned := false, key := none, sess := none, sid := 0, deadline := 0, leaseS := 0 }
    let sends := fun (i : Instr) (p : MirrorPend) => exec i s = .next (mirrored (left s r) { p with at_ := s.now, cmd := some c })
    (∀ n : BitVec 16, AtFront s hd opClaim (beBytes 2 n.toNat ++ zeros 2) c r →
      ((s.isHeld = false → o.owned = true → ¬mine → exec (.claim hd n) s = .next ((left s r).respond c 6))
      ∧ ((mine ∨ (s.isHeld = false ∧ o.owned = false)) → o.epoch ≠ 0xFFFFFFFF →
          sends (.claim hd n) { new_ := fresh c.slot n.toNat, at_ := 0, counter := 0x10030, data := beBytes 4 (lease n.toNat * 1000) })))
    ∧ (Executes s hd opRenew [] c r →
        sends (.renew hd)
          { new_ := { o with deadline := s.now + lease o.leaseS * 1000000000 }, at_ := 0, data := beBytes 4 (lease o.leaseS * 1000) })
    ∧ (∀ (id : DWord) (i : Nat), Executes s hd opHandover (beBytes 8 id.toNat) c r → s.slotOf id = some i → o.epoch ≠ 0xFFFFFFFF →
        sends (.handover hd id) { new_ := fresh i o.leaseS, at_ := 0, counter := 0x10034, target := some (i, id) })
    ∧ (Executes s hd opRelease [] c r → sends (.release hd) { new_ := none_, at_ := 0 })
    ∧ (∀ (sig : BitVec 768) (cert : List Byte) (signed : Option (List Byte)), AtFront s hd opRecover (argsRecover sig cert) c r →
        let covered := beBytes 8 s.fuse.serial.toNat ++ beBytes 4 o.epoch.toNat ++ beBytes 8 c.sid.toNat ++ ascii "aukor-recover"
        (signed = some covered → o.epoch ≠ 0xFFFFFFFF →
          sends (.recover hd sig cert signed) { new_ := fresh c.slot 0, at_ := 0, counter := 0x1003C })
        ∧ (signed ≠ some covered → ∃ u : State, exec (.recover hd sig cert signed) s = .next (u.respond c 0x0E)
            ∧ { u with ev := s.ev, regs := s.regs } = left s r))
    ∧ (s.leadRuns = true → o.owned = true → s.isHeld = false → s.ctl.pend = none → s.ctl.cmdq = [] → o.deadline ≤ s.now →
        exec .leaseExpire s = .next (mirrored s { new_ := none_, at_ := s.now, lapse := true, counter := 0x10038 }))
    ∧ (∀ p, s.ctl.pend = some p → p.cmd = some c → p.target = none →
        (s.mirrorOk = true → (s.isHeld = false ∨ c.op = opClaim ∨ c.op = opRecover) →
          ∃ u : State, exec .mirrorAck s = .next (u.respond c 0 p.data) ∧ u.ctl.own = p.new_ ∧ u.ctl.mirror = p.new_ ∧ u.ctl.pend = none
            ∧ u.isHeld = false ∧ u.mem = s.mem ∧ u.ctl.cmdq = s.ctl.cmdq)
        ∧ (p.at_ + 100000 ≤ s.now →
          ∃ u : State, exec .mirrorTimeout s = .next (u.respond c 5) ∧ u.ctl.own.epoch = o.epoch ∧ u.ctl.own.owned = o.owned ∧ u.ctl.own.key = o.key
            ∧ u.isHeld = true ∧ (s.ctl.load = none → u.ctl.pend = none ∧ u.mem = s.mem)))
    ∧ (∀ p, s.ctl.pend = some p → p.cmd = none → s.mirrorOk = true → (s.isHeld = false ∨ p.lapse = false) →
        ∃ u : State, exec .mirrorAck s = .next u ∧ u.ctl.own = p.new_ ∧ u.ctl.mirror = p.new_ ∧ u.ctl.pend = none
          ∧ u.isHeld = s.isHeld ∧ u.mem = s.mem ∧ u.ctl.cmdq = s.ctl.cmdq)

/-- R275 to R277, R311 to R314: quiescing and resuming the fabric; parking and rejoining the links of half 0. R235, R361, R490: START and
HALT on cores of half 0; what the follower does with its part of a command, and does not without the bridge or with another epoch. -/
def Obligations.FabricAndCoreCommands : Prop :=
  (
  ∀ (s : State) (hd : Head) (c : Cmd) (r : List Cmd),
    let b := left s r
    let shared := fun (p : Fwd) =>
      if s.farStatus = 0 then { b with ctl := { b.ctl with fwd := some (c, p) } } else b.respond c s.farStatus
    (Executes s hd opQuiesce [] c r →
      exec (.fabricQuiesce hd) s = .next (if s.rt.quiesced then b.respond c 0 else shared .quiesce))
    ∧ (Executes s hd opResume [] c r →
      exec (.fabricResume hd) s = .next (if s.rt.quiesced then shared .resume else b.respond c 0))
    ∧ (∀ m : Byte, Executes s hd opLinkPark (beBytes 1 m.toNat ++ zeros 3) c r → m &&& 0x2A = 0 →
      ∃ u : State, exec (.linkPark hd m) s = .next (u.respond c 0)
        ∧ { u with links := s.links, clk := s.clk, regs := s.regs, ev := s.ev, freeCtr := s.freeCtr } = b
        ∧ ((∀ l : LinkId, s.recovers l = false) → { u with links := s.links } = b)
        ∧ ∀ l : LinkId, let k := s.link l
          ((m.getLsbD l = false ∨ k.st = .off ∨ k.st = .parked) → u.link l = k)
          ∧ (m.getLsbD l = true → k.st = .parking → u.link l = { k with pend := false })
          ∧ (m.getLsbD l = true → k.st ≠ .off → k.st ≠ .parked → k.st ≠ .parking → u.link l = { k with st := .parking, since := s.now }))
    ∧ (∀ axes m : Byte, Executes s hd opLinkRejoin (beBytes 1 axes.toNat ++ beBytes 1 m.toNat ++ zeros 2) c r →
      ((s.bench = true ∨ s.rt.quiesced = false) → exec (.linkRejoin hd axes m) s = .next (b.respond c 2))
      ∧ (s.bench = false → s.rt.quiesced = true → axes &&& 7 = 0 → m &&& 0x2A = 0 → (∀ l : LinkId, (s.link l).st ≠ .parking) →
        ∃ u : State, exec (.linkRejoin hd axes m) s = .next (u.respond c 0)
          ∧ ∀ l : LinkId, m.getLsbD l = true → ((s.link l).st = .off ∨ (s.link l).st = .parked) → s.bypass.getLsbD (l.val / 2) = false →
            s.keptOff l = false → (u.link l).st = .training)
      ∧ (s.bench = false → s.rt.quiesced = true → axes &&& 7 ≠ 0 → s.farStatus = 0 →
        ∃ (u : State) (st : Nat), exec (.linkRejoin hd axes m) s = .next u ∧ u.bypass = s.bypass &&& ~~~(axes.setWidth 3)
          ∧ u.ctl.fwd = some (c, .rejoin (axisLinks axes.toNat ||| m.toNat) st))))
  ∧ (
  ∀ (s : State) (hd : Head) (c : Cmd) (r : List Cmd),
    let b := left s r
    (∀ (cores : BitVec 96) (threads entry : Word) (arg : DWord),
      let q : StartReq := ⟨false, cores, threads, entry, arg⟩
      Executes s hd opStart (argsStart cores threads entry arg) c r → entry.toNat % 8 = 0 → cores ≠ 0 → threads ≠ 0 →
      s.step.phase ≠ .uncertain → cores.toNat < 2 ^ 48 →
      (s.startOk q = false → exec (.start hd cores threads entry arg) s = .next (b.respond c 2))
      ∧ (s.startOk q = true → s.step.phase.defers = true → exec (.start hd cores threads entry arg) s
          = .next ({ b with step := { s.step with deferred := s.step.deferred ++ [q] } }.respond c 1))
      ∧ (s.startOk q = true → s.step.phase.defers = false →
        ∃ u : State, exec (.start hd cores threads entry arg) s = .next (u.respond c 0)
          ∧ (∀ (k : CoreId) (t : ThreadId), cores.getLsbD k = true → threads.getLsbD t = true →
              (u.thread k t).st = .run ∧ (u.thread k t).pc = entry.setWidth 64
                ∧ ∀ x : BitVec 5, (u.thread k t).sreg x = if x = 1 then arg else 0)
          ∧ ∀ (k : CoreId) (t : ThreadId), (cores.getLsbD k = false ∨ threads.getLsbD t = false) → u.thread k t = s.thread k t))
    ∧ (∀ cores : BitVec 96, Executes s hd opHalt (coreMask cores) c r → cores.toNat < 2 ^ 48 →
      (s.step.phase = .committing → exec (.halt hd cores) s
        = .next ({ b with step := { s.step with deferred := s.step.deferred ++ [(⟨true, cores, 0, 0, 0⟩ : StartReq)] } }.respond c 1))
      ∧ (s.step.phase ≠ .committing →
        ∃ u : State, exec (.halt hd cores) s = .next (u.respond c 0) ∧ { u with cores := s.cores } = b
          ∧ ∀ (k : CoreId) (t : ThreadId), let x := s.thread k t
            (cores.getLsbD k = true → (s.core k).ready = true → (s.core k).faultState = false → (x.st = .run ∨ x.st = .stopped) →
              (u.thread k t).st = .ending ∨ (u.thread k t).st = .idle)
            ∧ (cores.getLsbD k = false → u.thread k t = x)))
    ∧ (∀ (d : Cmd) (p : Fwd), s.ctl.fwd = some (d, p) → (∀ l, p ≠ .load l) →
      let b := { s with ctl := { s.ctl with fwd := none } }
      let does := fun (t : State) (st : Nat) => exec .forwardedCommand s = .next (t.respond d st)
      (s.bridge.dataUp = false → exec .forwardedCommand s = .next (b.respond d 0x0A p.data))
      ∧ (s.bridge.dataUp = true → (s.half 1).inReset = false → (s.half 1).up = true →
        (s.isHeld = true → exec .forwardedCommand s = .next ((b.bump 0x10040).respond d 5 p.data))
        ∧ (s.isHeld = false → d.epoch ≠ s.ctl.mirror.epoch →
          ∃ u : State, exec .forwardedCommand s = .next (u.respond d 5 p.data) ∧ (u.half 1).held = true ∧ u.links = s.links ∧ u.rt.quiesced = s.rt.quiesced)
        ∧ (s.isHeld = false → d.epoch = s.ctl.mirror.epoch →
          (∀ m : Nat, p = .park m → ∃ u : State, does u 0
            ∧ { u with links := s.links, clk := s.clk, regs := s.regs, ev := s.ev, freeCtr := s.freeCtr } = b
            ∧ ∀ l : LinkId, (l.val % 2 = 1 → m.testBit l = true → (s.link l).st = .active → (u.link l).st = .parking)
              ∧ (l.val % 2 = 0 → u.link l = s.link l))
          ∧ (p = .quiesce → s.rt.quiesced = false → does { b with rt := { s.rt with
              quiesced := true, resumeFail := false, staged := false, tblStaged := s.rt.tbl, dlStaged := s.rt.dl } } 0)
          ∧ (p = .resume → s.rt.quiesced = true →
            (s.rt.staged = false → does { b with rt := { s.rt with quiesced := false } } 0)
            ∧ (s.rt.staged = true → s.drained = true → does { b with rt := { s.rt with
                quiesced := false, staged := false, tbl := s.rt.tblStaged, dl := s.rt.dlStaged } } 0)
            ∧ (s.rt.staged = true → s.drained = false → s.rt.undrainedAt ≠ some s.now →
                does { b with rt := { s.rt with resumeFail := true } } 2))
          ∧ (∀ (q : StartReq), p = .start q → s.startOk q = true → s.step.phase.defers = false →
            ∃ u : State, does u 0 ∧ ∀ (k : CoreId) (t : ThreadId), q.cores.getLsbD k = true → q.threads.getLsbD t = true →
              (u.thread k t).st = .run ∧ (u.thread k t).pc = q.entry.setWidth 64)))))

/-- R140, R276, R349, R355, R365, R369, R426 to R429: what each RESET leaves and keeps, with the module in Run. -/
def Obligations.Resets : Prop :=
  ∀ (s : State) (hd : Head) (c : Cmd) (r : List Cmd), s.pstate = .run → s.pwr.run.st = .on → s.ctl.load = none →
    (∀ n : BitVec 16, Executes s hd opReset (argsReset 0 n.toNat) c r → n.toNat < 48 → (s.core n.toNat).ready = true →
      (s.half 0).inReset = false →
      ∃ u : State, exec (.resetCore hd n) s = .next u ∧ (u.core n.toNat).ready = false ∧ (u.core n.toNat).thr = [] ∧ (u.core n.toNat).mq = []
        ∧ (u.core n.toNat).rc = (s.core n.toNat).rc ∧ (u.core n.toNat).progBase = (s.core n.toNat).progBase
        ∧ (u.core n.toNat).faultState = false ∧ u.step.rstLatch = true ∧ (∀ d, d ≠ n.toNat → u.core d = s.core d) ∧ u.mem = s.mem)
    ∧ (Executes s hd opReset (argsReset 1 0) c r → (s.half 0).inReset = false →
      ∃ u : State, exec (.resetHalf hd 0) s = .next u ∧ (u.half 0).inReset = true ∧ (u.half 0).up = false ∧ u.half 1 = s.half 1 ∧ u.ctl.cmdq = []
        ∧ u.ctl.readq = [] ∧ u.ctl.pend = none ∧ (∀ j : SlotId, (u.sess j).st = .free) ∧ u.step.rstLatch = true
        ∧ (∀ k : CoreId, k.val < 48 → (u.core k).ready = false ∧ (u.core k).thr = []) ∧ u.mem = s.mem)
    ∧ (∀ n : BitVec 16, Executes s hd opReset (argsReset 2 n.toNat) c r → n.toNat < 6 → n.toNat % 2 = 0 → (s.link n.toNat).st = .active →
      ∃ u : State, exec (.resetLink hd n) s = .next u ∧ (u.link n.toNat).st = .training ∧ (u.link n.toNat).replay = []
        ∧ (∀ j, j ≠ n.toNat → u.link j = s.link j) ∧ u.bypass = s.bypass ∧ u.mem = s.mem
        ∧ u.raw (aLnk n.toNat 0x044)
            = BitVec.ofNat 32 (satAdd 32 (s.raw (aLnk n.toNat 0x044)).toNat (s.link n.toNat).waiting.length))
    ∧ (Executes s hd opReset (argsReset 3 0) c r →
      ∃ u : State, exec (.resetModuleWarm hd 0) s = .next u ∧ u.mem = s.mem ∧ u.timeCount = s.timeCount ∧ u.fuse = s.fuse
        ∧ u.step.committed = s.step.committed ∧ u.step.phase = .idle ∧ u.cores = [] ∧ u.links = [] ∧ u.img = {} ∧ u.bypass = 7
        ∧ u.ctl.own = { epoch := s.ctl.own.epoch } ∧ u.ctl.cmdq = [] ∧ u.boot.released = false ∧ u.boot.warm = true ∧ u.pwr.cause = 2
        ∧ u.debugOn = false)
    ∧ (∀ h : HalfId, (s.half h).inReset = true →
      ∃ u : State, exec (.halfResetEnd h) s = .next u ∧ (u.half h).inReset = false ∧ (u.half h).up = true ∧ (u.half h).held = true
        ∧ u.ctl.causes.getLsbD 4 = true ∧ u.ctl.own.owned = (if h.val = 0 ∧ s.bridge.sideUp = true ∧ (s.half 1).up = true
            then s.ctl.mirror.owned else s.ctl.own.owned) ∧ u.mem = s.mem)

/-- R407, R420, R423, R429: the Run function and the clock reference under their commands. R402 to R407, R413 to R415: the reference of the
root PLLs and its losses, the end of a slew, clocks that fail, the meter. -/
def Obligations.PowerAndClocks : Prop :=
  (
  ∀ (s : State) (hd : Head) (c : Cmd) (r : List Cmd),
    let b := left s r
    let shared := fun (t : Nat) =>
      if s.farStatus = 0 then { b with ctl := { b.ctl with fwd := some (c, .power t) } } else b.respond c s.farStatus
    (Executes s hd opSetPower (beBytes 1 0 ++ zeros 3) c r → exec (.setPowerStateRun hd) s = .next (shared 0))
    ∧ (Executes s hd opSetPower (beBytes 1 1 ++ zeros 3) c r → exec (.setPowerStateIdle hd) s = .next (shared 1))
    ∧ (Executes s hd opSetPower (beBytes 1 2 ++ zeros 3) c r → exec (.setPowerStateRest hd) s = .next (shared 2))
    ∧ (∀ t : Nat, s.ctl.fwd = some (c, .power t) → s.bridge.dataUp = true → (s.half 1).inReset = false → (s.half 1).up = true →
      s.isHeld = false → c.epoch = s.ctl.mirror.epoch →
      let b := { s with ctl := { s.ctl with fwd := none } }
      let fn := fun (f : FuncSt) (t : Nat) => { b with pwr := { s.pwr with run := f, target := t } }
      let does := fun (u : State) (n : Nat) => exec .forwardedCommand s = .next (u.respond c n)
      let st := s.pwr.run.st
      (t = 0 → (st = .off → does (fn { st := .starting } 0) 0)
        ∧ ((st = .on ∨ st = .starting) → s.pwr.target = 0 → does b 0)
        ∧ (st = .stopping → does (fn { s.pwr.run with pend := true } s.pwr.target) 1))
      ∧ (t = 1 ∨ t = 2 →
        (st = .on → s.mayLeave t = true → does (fn { st := .stopping } t) 0)
        ∧ (st = .on → s.mayLeave t = false → does b 2)
        ∧ (st = .stopping → s.pwr.target = t → does (fn { s.pwr.run with pend := false } t) 0)
        ∧ (st = .stopping → s.pwr.target ≠ t → does b 2)))
    ∧ (∀ src l f : Byte, Executes s hd opClock [src, l, f, 0] c r →
      let x : ClkSel := ⟨src.toNat, l.toNat, f.getLsbD 0⟩
      let there := s.srcPresent src.toNat l.toNat = true ∧ (src = 2 → s.keptOff l.toNat = false)
      (¬there → exec (.clockSelect hd src l f) s = .next (b.respond c 2))
      ∧ (there → s.clk.slewing = true →
          exec (.clockSelect hd src l f) s = .next ({ b with clk := { s.clk with deferred := some x, held := none } }.respond c 1))
      ∧ (there → s.clk.slewing = false → s.clk.inUse src.toNat l.toNat = false →
          exec (.clockSelect hd src l f) s = .next ({ b with clk := { s.clk with
            sel := x, input := src.toNat, goal := 228, slewing := true, clear := true, deferred := none, held := none
            fmSteady := false } }.respond c 0))))
  ∧ (
  ∀ (s : State),
    let k := s.clk
    (s.boot.released = true → k.boot = true →
      exec .xtalStable s = .next { s with clk := { k with
        sel := {}, input := 0, goal := 228, slewing := true, clear := false, deferred := none, held := none, boot := false, xtalOk := true
        fmSteady := false } }
      ∧ (s.boot.at_ + 50000000 ≤ s.now → ∃ u, exec .xtalTimeout s = .next u ∧ u.clk = { k with boot := false, refLost := true, locked := true }
          ∧ { u with clk := k, ev := s.ev, regs := s.regs } = s))
    ∧ (s.boot.released = true → k.slewing = false → k.input < 3 → s.holdover = false →
      ∃ u, exec .sourceFail s = .next u ∧ u.clk.xtalOk = (k.xtalOk && k.input != 0) ∧ u.clk.refclkOk = (k.refclkOk && k.input != 1)
        ∧ { u with clk := k, ev := s.ev, regs := s.regs } = s
        ∧ (k.sel.fallback = true → k.xtalOk = true → k.input ≠ 0 →
            u.clk.input = 0 ∧ u.clk.mult = k.mult ∧ u.clk.goal = k.mult ∧ u.clk.fbAct = true ∧ u.clk.slewing = true)
        ∧ ((k.sel.fallback = false ∨ k.xtalOk = false ∨ k.input = 0) →
            u.clk.input = 3 ∧ u.clk.goal = 57 ∧ u.clk.refLost = true ∧ u.clk.slewing = true))
    ∧ (k.slewing = true → k.deferred = none →
      ∃ u, exec .slewDone s = .next u ∧ { u with clk := k, regs := s.regs } = s
        ∧ u.clk = { k with mult := k.goal, slewing := false, clear := false, locked := true, refLost := k.refLost && !k.clear
                           fbAct := k.fbAct && !k.clear, fmSteady := false })
    ∧ (∀ n : Fin 308, s.boot.released = true → s.gateOn 3 n = true →
      (gateLeaf n = none → exec (.branchClockLoss (.gate n)) s = .next (s.post (gateHalf n) 0x03 0 .fatal 3 (leBytes 2 n)))
      ∧ (∀ c b : Nat, gateLeaf n = some (c, b) → (s.core c).ready = true →
          ∃ u, exec (.branchClockLoss (.gate n)) s = .next u ∧ (u.core c).faultState = true ∧ (u.core c).stepFault = true
            ∧ (∀ d, d ≠ c → u.core d = s.core d) ∧ u.mem = s.mem))
    ∧ (∀ d : Fin 18, s.boot.released = true → domDiv d ≠ 0 → d.val ≠ 16 →
      ∃ (u : State) (node : Nat), exec (.branchClockLoss (.dom d)) s = .next u
        ∧ { u with freeCtr := s.freeCtr } = s.post (domHalf d) 0x03 0 .fatal 3 (leBytes 2 node))
    ∧ (∀ h : HalfId, s.boot.released = true →
      ∃ u, exec (.pllLockLoss h) s = .next u ∧ u.clk.pllFault = true ∧ u.clk.locked = false ∧ u.mem = s.mem
        ∧ (k.refLost = false → u.clk.input = 3 ∧ u.clk.refLost = true) ∧ (k.refLost = true → u.clk = { k with pllFault := true, locked := false }))
    ∧ (∀ n : BitVec 30,
      let cfg := s.raw 0x30020
      let g := field cfg 24 20
      let m := field cfg 29 25
      let counts := fun (x : Nat) => exec (.fmDone n) s = .next { s with clk := { k with fm := false, fmDone := true, fmCount := x } }
      k.fm = true → s.domAbsent g = false →
      (s.domAbsent m = true → counts 0)
      ∧ (s.domAbsent m = false → (k.fmSteady = false ∨ k.ratio m = none ∨ k.ratio g = none) → counts n.toNat)
      ∧ (∀ a b c d : Nat, s.domAbsent m = false → k.fmSteady = true → k.ratio m = some (a, b) → k.ratio g = some (c, d) →
        let x := field cfg 19 0 * a * d
        let y := b * c
        counts (x / y + if n.getLsbD 0 = true ∧ x % y ≠ 0 then 1 else 0)))
    ∧ (k.fm = true → s.domAbsent (field (s.raw 0x30020) 24 20) = true → k.fmAt + 1000000 ≤ s.now →
      exec .fmGateAbsent s = .next { s with clk := { k with fm := false, fmErr := true } })
    ∧ (∀ b : Bool, s.boot.released = true →
      (k.boot = false → k.input ≠ 0 → exec (.referencePresenceChange .xtal b) s = .next { s with clk := { k with xtalOk := b } })
      ∧ (k.input ≠ 1 → exec (.referencePresenceChange .refclk b) s = .next { s with clk := { k with refclkOk := b } })))

/-- R454, R458, R460, R465 to R468: the steps of a firmware update and of debug mode. -/
def Obligations.FirmwareAndDebug : Prop :=
  ∀ (s : State) (hd : Head) (c : Cmd) (r : List Cmd),
    let b := left s r
    let x := s.sec
    let f := x.fwu
    (∀ (n : Word) (d : List Byte), Executes s hd opFwUpdate (argsFw 0 n.toNat d) c r → f.st = 0 →
      exec (.fwUpdateBegin hd n) s = .next ({ b with sec := { x with
        fwu := { st := 1, last := f.last, total := n.toNat, sess := some (c.slot, c.sid) } } }.respond c 0))
    ∧ (∀ (off : Word) (d : List Byte), Executes s hd opFwUpdate (argsFw 1 off.toNat d) c r →
      (f.st = 1 → f.sess = some (c.slot, c.sid) → off.toNat = f.data.length → f.data.length + d.length ≤ f.total →
        ∃ k, exec (.fwUpdateData hd off d) s = .next ({ b with sec := { x with fwu := { f with data := f.data ++ d, kind := k } } }.respond c 0))
      ∧ (f.st ≠ 1 → exec (.fwUpdateData hd off d) s = .next (b.respond c 2)))
    ∧ (∀ (d : List Byte) (fw an : Option (List Byte)), Executes s hd opFwUpdate (argsFw 2 0 d) c r →
      let sig := if leAt f.data 4 1 = 1 then fw else an
      (f.st ≠ 1 → exec (.fwUpdateCommit hd fw an) s = .next (b.respond c 2))
      ∧ (f.st = 1 → f.total ≤ f.data.length → pkgOk f.data = true →
        (sig ≠ some (pkgCovered f.data) → ∃ u : State, exec (.fwUpdateCommit hd fw an) s = .next (u.respond c 0x0E) ∧ u.sec.fwu.st = 0
          ∧ u.sec.fwu.last = 3 ∧ u.sec.next = x.next ∧ u.sec.fuseM = x.fuseM)
        ∧ (sig = some (pkgCovered f.data) → digestsOk f.data = false → ∃ u : State, exec (.fwUpdateCommit hd fw an) s = .next (u.respond c 2)
          ∧ u.sec.next = x.next ∧ u.sec.fwu.last = 5)
        ∧ (sig = some (pkgCovered f.data) → digestsOk f.data = true → leAt f.data 4 1 = 1 → x.fuseM ≤ leAt f.data 14 1 → x.fuseC ≤ leAt f.data 15 1 →
          ∃ u : State, exec (.fwUpdateCommit hd fw an) s = .next (u.respond c 0) ∧ u.sec.next = 1 - x.run ∧ u.sec.run = x.run
            ∧ (u.sec.slotOf (1 - x.run)).valid = true ∧ (u.sec.slotOf (1 - x.run)).svnM = leAt f.data 14 1
            ∧ (u.sec.slotOf (1 - x.run)).svnC = leAt f.data 15 1 ∧ u.sec.fuseM = x.fuseM ∧ u.sec.fuseC = x.fuseC ∧ u.mem = s.mem)
        ∧ (sig = some (pkgCovered f.data) → digestsOk f.data = true → leAt f.data 4 1 = 1 → (leAt f.data 14 1 < x.fuseM ∨ leAt f.data 15 1 < x.fuseC) →
          ∃ u : State, exec (.fwUpdateCommit hd fw an) s = .next (u.respond c 2) ∧ u.sec.next = x.next ∧ u.sec.fwu.last = 4)))
    ∧ (∀ d : List Byte, Executes s hd opFwUpdate (argsFw 3 0 d) c r →
      ∃ u : State, exec (.fwUpdateAbort hd) s = .next (u.respond c 0) ∧ u.sec.fwu.st = 0 ∧ u.sec.next = x.next ∧ { u with sec := x } = b)
    ∧ (∀ t : List Byte, Executes s hd opDebug (argsDebug 1 t) c r →
      (s.tokenOk t = true → ∃ u : State, exec (.debugEnable hd t (some (t.take 0x38))) s = .next (u.respond c 0) ∧ u.debugOn = true ∧ u.sec.dbgSince = true
        ∧ u.sec.dbgUntil = s.now + leAt t 0x14 4 * 1000000000 ∧ (∃ n, u.sec.chal = Config.freeChallenge n) ∧ u.mem = s.mem)
      ∧ (∀ sg, s.tokenOk t = false ∨ sg ≠ some (t.take 0x38) →
        ∃ u : State, exec (.debugEnable hd t sg) s = .next (u.respond c 0x0E) ∧ u.debugOn = s.debugOn ∧ u.cores = s.cores
        ∧ (∃ n, u.sec.chal = Config.freeChallenge n) ∧ u.mem = s.mem))
    ∧ (∀ t : List Byte, Executes s hd opDebug (argsDebug 0 t) c r →
      ∃ u : State, exec (.debugDisable hd) s = .next (u.respond c 0) ∧ u.debugOn = false ∧ u.mem = s.mem)
    ∧ (s.debugOn = true → x.dbgUntil ≤ s.now →
      ∃ u : State, exec .debugExpire s = .next u ∧ u.debugOn = false ∧ u.sec.dbgUntil = 0 ∧ u.sec.dbgKey = 0 ∧ u.mem = s.mem
        ∧ ∀ k : CoreId, (u.core k).stop = 0)

/-- R359, R361, R362, R443, R462: what registers, memory, STATUS, subscriptions and ATTEST answer to a session, and that a read changes no
memory. -/
def Obligations.RegisterAndMemoryCommands : Prop :=
  ∀ (s : State) (hd : Head) (c : Cmd) (r : List Cmd),
    (∀ a v : Word, Executes s hd opWriteReg (argsPairs [(a, v)]) c r → s.farReg a.toNat = false →
      let q := (left s r).writeReg a.toNat v
      exec (.writeReg hd [(a, v)]) s = .next (q.1.respond c q.2 (beBytes 2 (if q.2 ≤ 1 then 1 else 0) ++ zeros 2)))
    ∧ (∀ (a : DWord) (l : List Byte), Executes s hd opWriteMem (argsMem a.toNat l) c r → 1 ≤ l.length → s.ecc = [] →
      s.oneRegion (a.toNat, l.length) = true → s.farBytes 0 a.toNat l.length = 0 → a.toNat + l.length ≤ dramBase →
      (s.ownerClosed a.toNat l.length = true → exec (.writeMem hd a l) s = .next ((left s r).respond c 2))
      ∧ (s.ownerClosed a.toNat l.length = false → s.accRange 0 a.toNat l.length = .ok →
        ∃ u : State, exec (.writeMem hd a l) s = .next (u.respond c 0) ∧ u.bytes a.toNat l.length = l ∧ { u with mem := s.mem } = left s r
          ∧ ∀ y, y < a.toNat ∨ a.toNat + l.length ≤ y → u.byte y = s.byte y))
    ∧ (∀ a : Word, Reads s hd opReadReg (beBytes 4 a.toNat ++ beBytes 2 1 ++ zeros 2) c r →
      let o := s.isOwner c.slot
      let q := (unread s r).readReg o o .ok a.toNat
      (q.2.1 = 0 → exec (.readReg hd a 1) s = .next (q.1.respond c 0 (beBytes 4 q.2.2.toNat)))
      ∧ (q.2.1 ≠ 0 → exec (.readReg hd a 1) s = .next (q.1.respond c q.2.1)))
    ∧ (∀ (a : DWord) (n : BitVec 16), Reads s hd opReadMem (beBytes 8 a.toNat ++ beBytes 2 n.toNat ++ zeros 2) c r → s.ecc = [] →
      s.accRange 0 a.toNat n.toNat = .ok →
      ∃ u : State, exec (.readMem hd a n) s = .next (u.respond c 0 (s.bytes a.toNat n.toNat)) ∧ { u with bridge := s.bridge } = unread s r)
    ∧ (Reads s hd opStatus [] c r →
      ∃ (u : State) (l : List Byte), exec (.status hd) s = .next (u.respond c 0 (l ++ beBytes 16 s.ip6Global.toNat)) ∧ u.mem = s.mem)
    ∧ (∀ (k : Byte) (f : BitVec 16), Reads s hd opSubscribe (beBytes 1 k.toNat ++ zeros 1 ++ beBytes 2 f.toNat) c r →
      exec (.subscribe hd k f) s = .next
        (((unread s r).modSess c.slot fun x => { x with classes := k.setWidth 6, filter := f }).respond c 0))
    ∧ (Reads s hd opUnsubscribe [] c r → exec (.unsubscribe hd) s = .next
        (((unread s r).modSess c.slot fun x => { x with classes := 0, filter := 0xFFFF, queue := [] }).respond c 0))
    ∧ (∀ (n : BitVec 384) (dr : Nat), Reads s hd opAttest (digBytes n) c r →
      exec (.attest hd n dr) s = .next ((unread s r).respond c 0
        (s.report n ++ beBytes 96 (Config.deviceSign dr (Config.sha384 (s.report n))).toNat)))

/-- R16, R24, R379 to R383, R399: an image that fails a check changes nothing but the report of the load; one that passes goes to the
follower and is locked until it is loaded, which takes no longer than R382 allows; it is applied and in force as the load ends, and memory
is as it was outside the places that it names. -/
def Obligations.LoadingAnImage : Prop :=
  (∀ (s : State) (hd : Head) (c : Cmd) (r : List Cmd) (a : DWord) (n : Word) (sig : Option (List Byte)),
    Executes s hd opLoadImage (beBytes 8 a.toNat ++ beBytes 4 n.toNat) c r → s.ecc = [] →
    let k := (left s r).imgCheck a.toNat n.toNat (if (left s r).imgPlace a.toNat n.toNat = none then s.bytes a.toNat n.toNat else []) false sig
    (∀ e, k.1 = some e →
      ∃ (u : State) (d : List Byte), exec (.loadImage hd a n sig) s = .next (u.respond c e.status d)
        ∧ { u with ev := s.ev, regs := s.regs, freeCtr := s.freeCtr } = left s r)
    ∧ (k.1 = none →
      (s.farStatus = 0 → ∃ (u : State) (l : LoadSt), exec (.loadImage hd a n sig) s = .next u ∧ u.ctl = { (left s r).ctl with fwd := some (c, .load l) }
        ∧ { u with ctl := s.ctl, freeCtr := s.freeCtr } = s ∧ l.cmd = c ∧ l.addr = a.toNat ∧ l.len = n.toNat ∧ l.m = k.2
        ∧ l.regions = k.2.regions ∧ l.img.loaded = true ∧ s.now ≤ l.until_ ∧ l.until_ ≤ s.now + 10000000 + n.toNat)
      ∧ (s.farStatus ≠ 0 → ∃ u : State, exec (.loadImage hd a n sig) s = .next (u.respond c s.farStatus)
        ∧ { u with regs := s.regs, freeCtr := s.freeCtr } = left s r)))
  ∧ (∀ (s : State) (c : Cmd) (l : LoadSt), s.ctl.fwd = some (c, .load l) → s.bridge.dataUp = true → (s.half 1).inReset = false →
    (s.half 1).up = true → s.isHeld = false → c.epoch = s.ctl.mirror.epoch →
    exec .forwardedCommand s = .next { s with ctl := { s.ctl with fwd := none, load := some l } })
  ∧ (∀ (s : State) (l : LoadSt), s.pending = [] → s.ctl.load = some l → s.host.fillMgmt = 0 → s.host.fillBulk = 0 → s.pstate ≠ .off →
    (s.now + 1 < l.until_ → step s = .next s.tick)
    ∧ (l.until_ ≤ s.now + 1 → s.bridge.dataUp = true → ∃ u, step s = .next u ∧ u.img = l.img ∧ u.regions = l.regions ∧ u.ctl.load = none
      ∧ field (u.raw 0x60000) 7 4 = 1 ∧ u.step.phase = .idle ∧ u.step.attempt = 0 ∧ u.step.micro = 0 ∧ u.step.committed = s.step.committed
      ∧ (memWf s.mem = true → ∀ y, (∀ f, f ∈ l.m.fills → y < f.addr ∨ f.addr + f.len ≤ y) → mapGet 0 u.mem y = mapGet 0 s.mem y))
    ∧ (l.until_ ≤ s.now + 1 → s.bridge.dataUp = false → ∃ u, step s = .next u ∧ u.img = {} ∧ u.ctl.load = none
      ∧ field (u.raw 0x60000) 7 4 = 5 ∧ u.step.committed = s.step.committed))

/-! ## Functions, power and start-up -/

/-- R419 to R424: how the start and the stop of a gate, a stack and the Run function end: ON, OFF with an ERROR event, OFF, or, where an
enable waits, starting again; a stack's bytes are gone, and read 0, from its start and its stop. -/
def Obligations.FunctionTransitions : Prop :=
  ∀ (s : State),
    (∀ n : Fin 308,
      ((s.gate n).st = .starting → exec (.functionStarted (.gate n)) s = .next (s.setGate n { st := .on })
        ∧ ∃ u, exec (.functionStartFailed (.gate n)) s = .next u ∧ u.gate n = {} ∧ (∀ m, m ≠ n.val → u.gate m = s.gate m) ∧ u.mem = s.mem)
      ∧ ((s.gate n).st = .stopping → exec (.functionStopped (.gate n)) s
          = .next (s.setGate n (if (s.gate n).pend then { st := .starting } else { st := .off }))))
    ∧ (∀ j : StackId,
      let wiped := fun (u : State) => (∀ k, mapGet 0 u.mem k = if stackOfKey k = some j.val then 0 else mapGet 0 s.mem k)
        ∧ (∀ i, i ≠ j.val → u.stack i = s.stack i) ∧ u.cores = s.cores
      ((s.stack j).f.st = .starting → (s.half (j.val / 6)).inReset = true →
        exec (.functionStarted (.stack j)) s = .next s ∧ exec (.functionStartFailed (.stack j)) s = .next s)
      ∧ ((s.stack j).f.st = .starting → (s.half (j.val / 6)).inReset = false →
        (∃ u, exec (.functionStarted (.stack j)) s = .next u ∧ wiped u ∧ (u.stack j).f = { st := .on }
          ∧ (u.stack j).selfRefresh = decide (s.pstate = .rest))
        ∧ (∃ u, exec (.functionStartFailed (.stack j)) s = .next u ∧ (u.stack j).f = {} ∧ (∀ i, i ≠ j.val → u.stack i = s.stack i) ∧ u.mem = s.mem))
      ∧ ((s.stack j).f.st = .stopping →
        ∃ u, exec (.functionStopped (.stack j)) s = .next u ∧ wiped u
          ∧ (u.stack j).f = (if (s.stack j).f.pend then { st := .starting } else { st := .off })))
    ∧ (s.pwr.run.st = .starting →
      (s.pwr.resets = [] → ∃ u, exec (.functionStarted .run) s = .next u ∧ u.pstate = .run ∧ u.pwr.run = { st := .on } ∧ u.pwr.target = 0
        ∧ (∀ c : CoreId, (u.core c).arr.pwr = .cold) ∧ u.mem = s.mem)
      ∧ (∃ u, exec (.functionStartFailed .run) s = .next u ∧ u.pstate = s.pstate ∧ u.pwr.run = {} ∧ u.mem = s.mem))
    ∧ (s.pwr.run.st = .stopping → s.pwr.run.pend = false → s.pwr.resets = [] →
      ∃ u, exec (.functionStopped .run) s = .next u ∧ u.pstate = (if s.pwr.target = 2 then .rest else if s.pwr.target = 1 then .idle else .run)
        ∧ u.pwr.run = { st := .off } ∧ u.cores = s.cores ∧ u.mem = s.mem)

/-- R417, R422, R425 to R428, R430, R432 to R434: the power and reset pins, the input voltage, trips and warnings. -/
def Obligations.PowerAndResetPins : Prop :=
  ∀ (s : State),
    let off := fun (u : State) => u.pstate = .off ∧ u.mem = [] ∧ u.cores = [] ∧ u.links = [] ∧ u.step = {} ∧ u.img = {} ∧ u.ctl.own = {}
      ∧ u.bypass = 7 ∧ u.pwr.pwrGood = false ∧ u.fuse = s.fuse
    let risen := fun (p : PwrSt) => { s with pwr := { p with pwrEn := true, inSince := s.now } }
    (s.pwr.pwrEn = false → s.pwr.tripped = false → exec .pwrEnRise s = .next (risen { s.pwr with cause := 0 }))
    ∧ (s.pwr.pwrEn = false → s.pwr.tripped = true →
      (s.now < s.pwr.lowAt + 100000000 → exec .pwrEnRise s = .next (risen { s.pwr with cause := 0 }))
      ∧ (s.pwr.lowAt + 100000000 ≤ s.now → exec .pwrEnRise s = .next (risen { s.pwr with tripped := false, cause := 3 })))
    ∧ (s.pending = [] → s.pstate = .off → s.pwr.pwrEn = true → s.pwr.inRange = true → s.pwr.tripped = false → s.ctl.load = none →
      ∃ u, step s = .next u ∧ (s.now + 1 < s.pwr.inSince + 10000000 → u.pstate = .off ∧ u.pwr = s.pwr)
        ∧ (s.pwr.inSince + 10000000 ≤ s.now + 1 → u.pstate = .run ∧ u.pwr.pwrGood = true ∧ u.clk.gates = [] ∧ u.mem = s.mem))
    ∧ (s.pwr.pwrEn = true → s.pstate ≠ .off →
      ∃ u, exec .pwrEnFall s = .next u ∧ off u ∧ u.pwr.pwrEn = false ∧ u.pwr.lowAt = s.now ∧ u.pwr.thermN = false)
    ∧ (s.pstate ≠ .off → s.boot.released = true → s.ctl.load = none →
      ∃ u, exec .modResetNLow s = .next u ∧ u.mem = s.mem ∧ u.timeCount = s.timeCount ∧ u.step.committed = s.step.committed ∧ u.cores = []
        ∧ u.pwr.cause = 1 ∧ u.pwr.resetN = false ∧ u.boot.released = false)
    ∧ (∀ (x : BitVec 10) (p q : Bool), s.pstate ≠ .off → s.pwr.pwrGood = true → s.boot.released = false → s.ctl.load = none →
      ∃ u, exec (.resetRelease x p q) s = .next u ∧ u.boot.released = true ∧ u.boot.strap = x ∧ u.boot.strapFault = strapBad x
        ∧ u.boot.leadState = (if p && q then 2 else if !p && !q then 1 else 0) ∧ ((u.half 0).held = true ↔ (p = q ∨ (s.half 0).held = true))
        ∧ (p ≠ q → (u.half 0).lead = true) ∧ u.mem = s.mem)
    ∧ (∀ v : BitVec 16, 30000 ≤ v.toNat →
      let ok := decide (46000 ≤ v.toNat ∧ v.toNat ≤ 56000)
      let b := { s with pwr := { s.pwr with inRange := ok, inSince := if ok then s.now else s.pwr.inSince } }
      (s.pstate ≠ .off → ok ≠ s.pwr.inRange → exec (.inputVoltageChange v) s = .next
          (b.post 0 0x04 0 (if ok then .notice else .warning) (if ok then 2 else 1) (leBytes 4 v.toNat)))
      ∧ (s.pstate = .off → ok ≠ s.pwr.inRange → exec (.inputVoltageChange v) s = .next b)
      ∧ (ok = s.pwr.inRange → exec (.inputVoltageChange v) s = .next s))
    ∧ (∀ v : BitVec 16, v.toNat < 30000 → s.pstate ≠ .off →
      ∃ u, exec (.standbyLoss v) s = .next u ∧ off u ∧ u.pwr.trip = 0 ∧ u.pwr.tripped = false ∧ u.raw 0x4004C = 0)
    ∧ (∀ l : List TripCause, l ≠ [] → s.pstate ≠ .off → s.pwr.pwrGood = true →
      ∃ u, exec (.trip l) s = .next u ∧ off u ∧ u.pwr.tripped = true ∧ (∀ x, x ∈ l → x.bit &&& u.pwr.trip = x.bit)
        ∧ ((∃ x, x ∈ l ∧ x.sensor ≠ none) → u.pwr.thermN = true)
        ∧ u.raw 0x4004C = BitVec.ofNat 32 (satAdd 32 (s.raw 0x4004C).toNat 1))
    ∧ (∀ w : BitVec 16, s.boot.released = true → field (s.raw 0x40024) 31 16 < w.toNat →
      exec (.powerWarnCheck w) s = .next (s.post 0 0x04 0 .warning 5 (leBytes 2 w.toNat)))
    ∧ (∀ (h : HalfId) (t : Byte), s.boot.released = true → field (s.raw 0x40024) 15 8 < t.toNat →
      exec (.dieTempWarn h t) s = .next (s.post h 0x04 0 .warning 6 (leBytes 1 h ++ leBytes 1 t.toNat)))

/-- R431, R455 to R458: the boot ROM takes a slot that passes, tries the other one, or stays; the core firmware is loaded only where its
digest agrees; start-up ends with the module's commands served and the fuses at the versions that run. -/
def Obligations.StartUp : Prop :=
  ∀ (s : State),
    (∀ v : SlotCheck, s.boot.released = true → s.clk.boot = false → s.clk.slewing = false → s.boot.fw = false → s.sec.romOnly = false →
      let f := s.sec.slotOf s.boot.slot
      let passes := f.valid = true ∧ v.sigOk = true ∧ s.sec.fuseM ≤ f.svnM ∧ s.sec.fuseC ≤ f.svnC ∧ v.digestOk = true
      (passes → ∃ u, exec (.bootSlotCheck v) s = .next u ∧ u.boot.fw = true ∧ u.sec.run = s.boot.slot ∧ u.sec.mgmt = v.mgmtDigest
        ∧ u.sec.rom = v.romDigest ∧ u.sec.logCount = s.sec.logCount + 2 ∧ u.host.training = true ∧ u.mem = s.mem)
      ∧ (¬passes → s.boot.tried = 0 → ∃ u, exec (.bootSlotCheck v) s = .next u ∧ u.boot.fw = false ∧ u.boot.slot = 1 - s.boot.slot
        ∧ u.boot.tried = 1 ∧ u.sec = s.sec)
      ∧ (¬passes → s.boot.tried ≠ 0 → exec (.bootSlotCheck v) s = .next { s with sec := { s.sec with romOnly := true } }))
    ∧ (∀ d : BitVec 384, s.boot.fw = true → s.bridge.training = false → (∀ j : StackId, (s.stack j).f.st ≠ .starting) →
      s.boot.coreFw = false → s.sec.coreFwBad = false →
      (∃ u, exec (.coreFwLoad true d) s = .next u ∧ u.boot.coreFw = true ∧ u.sec.coreFw = d ∧ u.sec.logCount = s.sec.logCount + 2 ∧ u.mem = s.mem)
      ∧ (∃ u, exec (.coreFwLoad false d) s = .next u ∧ u.boot.coreFw = false ∧ u.sec.coreFwBad = true ∧ u.sec.coreFw = s.sec.coreFw
        ∧ u.mem = s.mem))
    ∧ (s.boot.fw = true → s.boot.done = false → s.host.up = true → s.boot.coreFw = true → (∀ c : CoreId, (s.core c).ready = true) →
      ∃ u, exec .startupComplete s = .next u ∧ u.boot.done = true ∧ u.sec.fuseM = max s.sec.fuseM (s.sec.slotOf s.sec.run).svnM
        ∧ u.sec.fuseC = max s.sec.fuseC (s.sec.slotOf s.sec.run).svnC ∧ u.cores = s.cores ∧ u.mem = s.mem)

/-! ## Events, I3C, registers, sessions and the host port -/

/-- R438 to R445, R447, R450: the rows of the event unit complete in every state and touch no link, route, clock or owner record. The record
that came first of those that the lead takes is accepted; it stands in the ring, or the trace buffer, 32 bytes long; a window that folded
records posts the latest with its REPEAT; a loss is reported by a GAP after 10 ms; a subscriber is sent the records that wait for it;
telemetry is a TRACE record. -/
def Obligations.EventRecords : Prop :=
  (∀ (s : State) (i : Instr) (j : SlotId) (blk ins : Byte) (code : BitVec 16),
    (i = .recordAccept blk ins ∨ i = .coalesceWindowEnd blk ins code ∨ i = .gapTimer blk ins ∨ i = .eventStreamSend j ∨ i = .telemetrySample) →
    ∃ t, exec i s = .next t ∧ t.links = s.links ∧ t.rt = s.rt ∧ t.clk = s.clk ∧ t.pwr = s.pwr ∧ t.img = s.img
      ∧ t.ctl.own = s.ctl.own ∧ t.ctl.cmdq = s.ctl.cmdq)
  ∧ (∀ (s : State) (k : Nat) (x : Rec), s.nextSource = some (k, x) →
    (∃ p, p ∈ s.ev.src ∧ p.1 = k ∧ p.2.queue.head? = some x ∧ s.takesFrom x.half = true)
    ∧ ∀ p y, p ∈ s.ev.src → p.2.queue.head? = some y → s.takesFrom y.half = true → y.before x = false)
  ∧ ∀ (s : State),
    (∀ blk ins : Byte, (s.nextSource = none ∨ (∃ k x, s.nextSource = some (k, x) ∧ k ≠ srcKey blk.toNat ins.toNat)) →
      exec (.recordAccept blk ins) s = .next s)
    ∧ (∀ (blk ins : Byte) (x : Rec) (l : List Rec),
      let k := srcKey blk.toNat ins.toNat
      s.nextSource = some (k, x) → (s.src k).queue = x :: l → x.more = none → s.ecc = [] →
      (x.gap = true ∨ ((s.src k).loss0.n = 0 ∧ (s.src k).loss1.n = 0)) →
      let stands := fun (u : State) (a : Nat) => u.bytes a 32 = x.encode false x.payload ∧ (∀ y, y < a ∨ a + 32 ≤ y → u.byte y = s.byte y)
      (x.cls ≠ .trace ∨ s.ev.traceLen = 0 →
        let rsv := decide (x.cls = .fatal ∨ x.cls = .security)
        let n := if rsv then s.ev.wrRsv else s.ev.wrMain
        let a := s.ev.entryAt rsv n
        a + 32 ≤ 0x000280000000 →
        ∃ u, exec (.recordAccept blk ins) s = .next u ∧ (u.src k).queue = l ∧ stands u a ∧ (if rsv then u.ev.wrRsv else u.ev.wrMain) = (n + 1) % 2 ^ 32
          ∧ u.ev.fatal = (s.ev.fatal || decide (x.cls = .fatal)) ∧ u.cores = s.cores)
      ∧ (x.cls = .trace → s.ev.traceLen ≠ 0 → s.ev.traceStopped = false → (s.raw 0x50014).getLsbD 31 = false →
        let i := s.ev.traceIdx % (s.ev.traceLen / 32)
        let a := commonsBase + s.ev.traceOff + 32 * i
        a + 32 ≤ 0x000280000000 →
        ∃ u, exec (.recordAccept blk ins) s = .next u ∧ (u.src k).queue = l ∧ stands u a ∧ u.ev.traceIdx = (i + 1) % (s.ev.traceLen / 32)
          ∧ u.ev.wrMain = s.ev.wrMain ∧ u.cores = s.cores))
    ∧ (∀ (blk ins : Byte) (code : BitVec 16) (w : Window) (l : List Window),
      let k := srcKey blk.toNat ins.toNat
      (s.src k).windows = w :: l → w.code = code.toNat → w.closes ≤ s.now →
      let b := s.modSrc k fun q => { q with windows := l }
      exec (.coalesceWindowEnd blk ins code) s
        = .next (if w.count = 0 then b else b.limitPost { w.latest with rep := min 65535 w.count }))
    ∧ (∀ blk ins : Byte,
      let k := srcKey blk.toNat ins.toNat
      let a := (s.src k).loss0
      0 < a.n → a.firstAt + 10000000 ≤ s.now → (s.src k).loss1.n = 0 →
      ∃ u g, exec (.gapTimer blk ins) s = .next u ∧ (u.src k).queue = (s.src k).queue ++ [g] ∧ (u.src k).loss0 = {} ∧ g.gap = true
        ∧ g.block = 5 ∧ g.code = 1 ∧ g.payload = gapPay a.n a.mask 0 a.first ∧ u.mem = s.mem)
    ∧ (∀ (j : SlotId) (n : Nat) (t : DWord) (cls : Nat),
      let x := s.sess j
      s.serves = true → x.st = .open_ → x.queue = [.ring false n t cls 1] → s.ecc = [] → x.cout.toNat ≠ 2 ^ 64 - 1 →
      (s.ev.wrMain + 2 ^ 32 - n) % 2 ^ 32 ≤ s.ev.mainEntries →
      ∃ u, exec (.eventStreamSend j) s = .next u ∧ (u.sess j).queue = [] ∧ u.mem = s.mem
        ∧ u.ctl.out = s.ctl.out ++ [.event x.peer (x.cout + 1) [s.bytes (s.ev.entryAt false n) 32]])
    ∧ (let p := field (s.raw 0x50030) 15 0
      s.boot.fw = true → (s.half 0).up = true → (s.half 0).inReset = false → p ≠ 0 → s.ev.teleAt + p * 1000000 ≤ s.now →
      ∃ (u : State) (l : List Byte), exec .telemetrySample s = .next (u.post 0 0x05 0 .trace 2 l) ∧ l.length = 8 ∧ u.ev.teleAt = s.now
        ∧ { u with ev := s.ev, freeCtr := s.freeCtr } = s)

/-- R451, R456: the I3C target: its address, the bytes it answers with, the register it selects and reads. -/
def Obligations.I3cTarget : Prop :=
  ∀ (s : State), s.i3cOn = true →
    let answers := fun (i : Instr) (n : Nat) => ∃ (u : State) (l : List Byte), exec i s = .next u ∧ l.length = n
      ∧ { u with freeCtr := s.freeCtr } = s.emit (.i3c l)
    (∀ a : DynAddr, s.i3c.dyn = none → exec (.entdaa a) s = .next { s with i3c := { s.i3c with dyn := some a } }
      ∧ exec (.setdasa a) s = .next { s with i3c := { s.i3c with dyn := some a } })
    ∧ exec .rstdaa s = .next { s with i3c := { s.i3c with dyn := none } }
    ∧ answers .getpid 6 ∧ answers .getbcr 1 ∧ answers .getdcr 1 ∧ answers .getmwl 2
    ∧ (∃ (u : State) (h l : Byte), exec .getstatus s = .next u ∧ u.ctl.out = s.ctl.out ++ [.i3c [h, l]] ∧ l.getLsbD 5 = s.i3c.err
        ∧ u.i3c.err = false ∧ u.mem = s.mem)
    ∧ (∀ l : List Byte, l.length = 4 →
        exec (.i3cPrivateWrite l) s = .next { s with i3c := { s.i3c with sel := some (BitVec.ofNat 32 (leNat l)) } })
    ∧ (∀ w : Word, s.i3c.sel = some w →
      let q := s.readReg false true .ok w.toNat
      (s.i3cServed w.toNat = true → q.2.1 = 0 → exec .i3cPrivateRead s = .next (q.1.emit (.i3c (leBytes 4 q.2.2.toNat))))
      ∧ (s.i3cServed w.toNat = false ∨ q.2.1 ≠ 0 →
          ∃ u : State, exec .i3cPrivateRead s = .next u ∧ u.ctl.out = s.ctl.out ++ [.i3c [0, 0, 0, 0]] ∧ u.i3c.err = true ∧ u.mem = s.mem))

/-- R5 to R9, R451: I3C writes nothing; a plain register takes the value that the owner writes; a counter clears by a read of the owner and
not of another session. R100, R101, R108, R232, R237, R409, R411, R414, R423, R424, R447: the registers whose write or read is an
operation, when the owner does it. -/
def Obligations.RegisterOperations : Prop :=
  (
  ∀ (s : State) (i : SlotId),
    (∀ a v : Word, exec (.regWrite .i3c a v) s = .next s)
    ∧ (Owns s i → ∀ v : Word, Writes (.regWrite (.sess i) 0x18 v) s (s.setRaw 0x18 v) 0x18 0 ∧ (s.setRaw 0x18 v).raw 0x18 = v)
    ∧ (s.readsRun = true → (s.sess i).st = .open_ →
      ∃ u : State, exec (.regReadClear (.sess i) 0x10030) s = .next u ∧ u.ctl.out = s.ctl.out ++ [.regValue 0x10030 (s.raw 0x10030)]
        ∧ u.raw 0x10030 = (if s.isOwner i then 0 else s.raw 0x10030) ∧ u.mem = s.mem))
  ∧ (
  ∀ (s : State) (i : SlotId), Owns s i →
    let q := Requester.sess i
    let near := fun (c : CoreId) => (s.half (halfOf c)).inReset = false ∧ (c.val < 48 ∨ s.bridge.dataUp = true)
    (∀ v : Word,
      (s.step.phase ≠ .idle → Writes (.stepCommittedHiWrite q v) s s 0xB001C 2)
      ∧ (∀ lo : Word, s.step.phase = .idle → s.step.loPending = some lo →
          ∃ b : State, Writes (.stepCommittedHiWrite q v) s b 0xB001C 0 ∧ b.step.loPending = none ∧ b.cores = s.cores
            ∧ b.step.committed = BitVec.ofNat 64 (v.toNat * 2 ^ 32 + lo.toNat))
      ∧ Writes (.timeAdjust q v) s { s with timeCount := s.timeCount + BitVec.ofNat 64 (v.toNat * 2 ^ 32 + (s.raw 0x30038).toNat) } 0x3003C 0
      ∧ Writes (.traceRestart q 0) s { s with ev := { s.ev with traceIdx := 0, traceStopped := false } } 0x50010 0
      ∧ (v.getLsbD 31 = true → ∃ b : State, Writes (.fmStart q v) s b 0x30020 0 ∧ b.clk.fm = true ∧ b.clk.fmAt = s.now ∧ b.clk.fmDone = false
          ∧ b.clk.fmErr = false ∧ { b with clk := s.clk, regs := s.regs } = s))
    ∧ (∀ (c : CoreId) (t : ThreadId), near c →
      (s.debugOn = false → Writes (.threadStop q c t) s s (aCore c 0x010) 9 ∧ Writes (.threadResume q c t) s s (aCore c 0x010) 9)
      ∧ (s.debugOn = true → (s.core c).faultState = false → s.thread c t ≠ {} →
        (∃ b : State, Writes (.threadStop q c t) s b (aCore c 0x010) 0 ∧ (b.core c).stop.getLsbD t = true
          ∧ ((s.thread c t).st = .run → (b.thread c t) = { s.thread c t with st := .stopped }) ∧ { b with cores := s.cores } = s)
        ∧ (∃ b : State, Writes (.threadResume q c t) s b (aCore c 0x010) 0 ∧ (b.core c).stop.getLsbD t = false
          ∧ ((s.thread c t).st = .stopped → (b.thread c t) = { s.thread c t with st := .run }) ∧ { b with cores := s.cores } = s)))
    ∧ (∀ c : CoreId, near c → s.ctl.fwd = none →
      (s.debugOn = false → exec (.arrDbgData0Read q c .ok) s = .next (s.emit (.regStatus (BitVec.ofNat 32 (aArr c 0x084)) 9)))
      ∧ (s.debugOn = true → ∃ (u : State) (v : Word), exec (.arrDbgData0Read q c .ok) s
            = .next (u.emit (.regValue (BitVec.ofNat 32 (aArr c 0x084)) v))
          ∧ (let w := s.raw (aArr c 0x080)
             (u.core c).arr.dbg.e = mapGet {} (s.core c).arr.acc (field w 16 16 * 8192 + field w 15 8 * 32 + field w 4 0))
          ∧ { u with cores := s.cores } = s))
    ∧ (∀ n : Nat, field (s.raw 0x30010) 8 0 = n → n < 308 →
      ((∀ p, gateParent n = some p → (s.gate p).st = .on) → (s.gate n).st = .off →
        ∃ b : State, Writes (.gateEnable q) s b 0x30014 0 ∧ b.gate n = { st := .starting } ∧ ∀ m, m ≠ n → b.gate m = s.gate m)
      ∧ ((∃ p, gateParent n = some p ∧ (s.gate p).st ≠ .on) → Writes (.gateEnable q) s s 0x30014 2)
      ∧ ((s.gate n).st = .on →
        (s.gateKids n = false → s.gateBusy n = false →
          ∃ b : State, Writes (.gateDisable q false) s b 0x30014 0 ∧ b.gate n = { st := .stopping } ∧ ∀ m, m ≠ n → b.gate m = s.gate m)
        ∧ ((s.gateKids n = true ∨ s.gateBusy n = true) → Writes (.gateDisable q false) s s 0x30014 2)
        ∧ Writes (.gateDisable q true) s s 0x30014 2))
    ∧ (∀ j : StackId,
      (s.pwr.stkEn.getLsbD j = false → (s.stack j).f.st = .off → ∃ b : State, Writes (.stackEnable q j) s b 0x40030 0
        ∧ (b.stack j).f = { st := .starting } ∧ b.pwr.stkEn.getLsbD j = true ∧ (∀ k, k ≠ j.val → b.stack k = s.stack k) ∧ b.mem = s.mem)
      ∧ (s.pwr.stkEn.getLsbD j = true → (s.stack j).f.st = .on → ∃ b : State, Writes (.stackDisable q j) s b 0x40030 0
        ∧ (b.stack j).f = { st := .stopping } ∧ b.pwr.stkEn.getLsbD j = false ∧ (∀ k, k ≠ j.val → b.stack k = s.stack k) ∧ b.mem = s.mem))
    ∧ (s.step.phase ≠ .uncertain → Writes (.resolveCommit q) s s 0xB0008 2 ∧ Writes (.resolveAbort q) s s 0xB0008 2)
    ∧ (s.step.phase = .uncertain →
      (∃ b : State, Writes (.resolveCommit q) s b 0xB0008 0 ∧ b.step.phase = .committing
        ∧ b.step.bankSel = s.step.bankSel ^^^ BitVec.ofNat 16 s.bankDef ∧ b.step.committed = s.step.committed ∧ b.cores = s.cores)
      ∧ (∃ b : State, Writes (.resolveAbort q) s b 0xB0008 0 ∧ b.step.phase = .failed ∧ b.step.bankSel = s.step.bankSel
        ∧ b.step.committed = s.step.committed ∧ b.cores = s.cores)))

/-- R342 to R344, R350 to R357, R360, R361, R364, R370: how a session is set up and ends, and what a COMMAND frame that passes its checks
becomes. R343, R350, R351, R354, R355: a frame that does not fit, of another port or layout, of no open session, with a bad tag or another
VER, or whose counter does not rise, is dropped and counted and changes nothing else; one of another address closes its session. -/
def Obligations.Sessions : Prop :=
  (
  ∀ (s : State) (f : UdpIn) (x : AukorIn) (dr : Nat), Arrives s f 1 x → (s.ctl.hello < 64 ∨ s.ctl.helloAt + 1000000000 ≤ s.now) →
    let t := took s f.eth false
    let lo := beAt x.body 0 1
    let hi := beAt x.body 1 1
    let v := min 0x22 hi
    let meet := lo ≤ v ∧ 0x20 ≤ v
    let replies := fun (u : State) (st ver : Nat) (id : DWord) (body : List Byte) => exec (.hello f.eth f.addr f.port f.data dr) s = .next u
      ∧ u.ctl.out = t.ctl.out ++ [.helloReply f.addr id body] ∧ u.mem = s.mem
      ∧ ∃ (nonce : BitVec 256) (qm : BitVec 776), let part := helloReplyPart st ver nonce s.fuse.serial qm
        body = part ++ beBytes 96 (Config.deviceSign dr (Config.sha384 (x.body ++ part ++ beBytes 8 id.toNat))).toNat
    (∀ j : SlotId, meet → (s.sess j).st = .free → (∀ k : SlotId, k < j → (s.sess k).st ≠ .free) →
      ∃ (u : State) (id : DWord) (body : List Byte), replies u 0 v id body ∧ id.toNat % 16 = j.val
        ∧ u.sess j = { st := .setup, id := id, ver := BitVec.ofNat 8 v, addr := f.addr, at_ := s.now, hello := x.body, reply := body }
        ∧ (∀ k, k ≠ j.val → u.sess k = s.sess k))
    ∧ (meet → (∀ k : SlotId, (s.sess k).st ≠ .free) →
      ∃ (u : State) (ver : Nat) (id : DWord) (body : List Byte), replies u 0x0B ver id body ∧ u.ctl.sess = t.ctl.sess)
    ∧ (¬meet → ∃ (u : State) (ver : Nat) (id : DWord) (body : List Byte), replies u 0x0F ver id body ∧ u.ctl.sess = t.ctl.sess))
  ∧ (
  ∀ (s : State) (f : UdpIn) (k : AukorIn) (j : SlotId) (spki : List Byte) (signed : Option (List Byte)),
    let x := s.sess j
    let b := k.body
    Arrives s f 3 k → s.setupOf k.h.session f.addr = some j.val → x.frags = [] → x.fragN = 0 → k.h.frag = 1 → keyBodyOk b = true →
    let covered := x.hello ++ x.reply ++ b.take (b.length - 96)
    let z := Config.ecdh (BitVec.ofNat 776 (beAt x.reply 44 97)) (BitVec.ofNat 776 (beAt b 0 97))
    let prk := hkdfExtract (slice x.hello 4 32 ++ slice x.reply 4 32) (beBytes 48 z.toNat)
    let dir := fun (d : String) => hkdfExpand prk (ascii "aukor " ++ ascii d ++ beBytes 8 x.id.toNat)
    let answers := fun (u : State) (st : Nat) => exec (.key f.eth f.addr f.port f.data spki signed) s = .next u
      ∧ u.ctl.out = (took s f.eth false).ctl.out ++ [.keyReply ⟨x.id, x.ver, dir "m2c", x.addr⟩ st]
      ∧ (∀ k, k ≠ j.val → u.sess k = s.sess k) ∧ u.mem = s.mem
    (signed = some covered → ∃ u, answers u 0 ∧ u.sess j = { x with
      st := .open_, key := keyIdOf spki, cout := 1, at_ := s.now, hello := [], reply := [], c2m := dir "c2m", m2c := dir "m2c" })
    ∧ (signed ≠ some covered → ∃ u, answers u 0x0E ∧ u.sess j = {}))
  ∧ (
  ∀ (s : State) (j : SlotId),
    let x := s.sess j
    let closes := fun (t u : State) (reason : Nat) => u.sess j = {} ∧ (∀ k, k ≠ j.val → u.sess k = s.sess k) ∧ u.ctl.own = s.ctl.own
      ∧ u.ctl.out = t.ctl.out ++ [.close x.peer (x.cout + 1) reason] ∧ u.mem = s.mem
      ∧ (s.ctl.pend = none → s.ctl.own.sess = some j.val → s.ctl.own.sid = x.id →
          ∃ p, u.ctl.pend = some p ∧ p.new_ = { s.ctl.own with sess := none, sid := 0 } ∧ p.cmd = none ∧ p.lapse = false)
    (x.st = .setup → x.at_ + 1000000000 ≤ s.now →
      ∃ u, exec (.sessionSetupTimeout j) s = .next u ∧ u.sess j = {} ∧ (∀ k, k ≠ j.val → u.sess k = s.sess k) ∧ u.mem = s.mem)
    ∧ (x.st = .open_ → x.cout.toNat ≠ 2 ^ 64 - 1 →
      (x.at_ + 120000000000 ≤ s.now → ∃ u, exec (.sessionIdleTimeout j) s = .next u ∧ closes s u 1)
      ∧ (∀ (f : UdpIn) (k : AukorIn) (type : Nat), Arrives s f type k → type = 5 ∨ type = 8 → s.slotOf k.h.session = some j.val →
        k.tag = frameTag x.c2m k.covered → x.cin < k.h.counter → k.h.ver = x.ver.toNat →
        let t := took s f.eth false
        (x.addr ≠ f.addr →
          (type = 5 → ∃ u, exec (.command ⟨f.eth, f.addr⟩ ⟨f.port, f.data⟩) s = .next u ∧ closes t u 2) ∧ (type = 8 → ∃ u, exec (.close f) s = .next u ∧ closes t u 2))
        ∧ (type = 8 → x.addr = f.addr → ∃ u, exec (.close f) s = .next u ∧ closes t u 0)
        ∧ (type = 5 → x.addr = f.addr →
          let c := cmdOf j k
          let heard := t.modSess j fun y => { y with cin := k.h.counter, at_ := s.now }
          (∀ r, x.kept.find? (fun r => r.reqId == c.reqId) = some r →
            exec (.command ⟨f.eth, f.addr⟩ ⟨f.port, f.data⟩) s = .next (heard.tagged j fun n => .resp x.peer n r))
          ∧ ((∀ r, r ∈ x.kept → r.reqId ≠ c.reqId) → s.inFlight c = true → exec (.command ⟨f.eth, f.addr⟩ ⟨f.port, f.data⟩) s = .next heard)
          ∧ ((∀ r, r ∈ x.kept → r.reqId ≠ c.reqId) → s.inFlight c = false →
            (argsOk c.op c.args = false → exec (.command ⟨f.eth, f.addr⟩ ⟨f.port, f.data⟩) s = .next (heard.respond c 7))
            ∧ (argsOk c.op c.args = true → needsMinor x.ver.toNat c.op c.args = true → exec (.command ⟨f.eth, f.addr⟩ ⟨f.port, f.data⟩) s = .next (heard.respond c 0x10))
            ∧ (argsOk c.op c.args = true → needsMinor x.ver.toNat c.op c.args = false →
              (0x40 ≤ c.op → exec (.command ⟨f.eth, f.addr⟩ ⟨f.port, f.data⟩) s = .next { heard with ctl := { heard.ctl with readq := s.ctl.readq ++ [c] } })
              ∧ (c.op < 0x40 → 16 ≤ s.ctl.cmdq.length → exec (.command ⟨f.eth, f.addr⟩ ⟨f.port, f.data⟩) s = .next (heard.respond c 0x0B))
              ∧ (c.op < 0x40 → s.ctl.cmdq.length < 16 → c.op ≠ opHandover → c.op ≠ opRelease →
                  exec (.command ⟨f.eth, f.addr⟩ ⟨f.port, f.data⟩) s = .next { heard with ctl := { heard.ctl with cmdq := s.ctl.cmdq ++ [c] } })))))))
  ∧ (
  ∀ (s : State) (f : UdpIn) (dr : Nat) (spki : List Byte) (signed : Option (List Byte)), s.serves = true →
    let t := took s f.eth false
    let all := fun (u : State) => exec (.hello f.eth f.addr f.port f.data dr) s = .next u ∧ exec (.key f.eth f.addr f.port f.data spki signed) s = .next u ∧ exec (.command ⟨f.eth, f.addr⟩ ⟨f.port, f.data⟩) s = .next u
      ∧ exec (.close f) s = .next u
    (¬Fits s f.eth false → all (s.bump 0x70040))
    ∧ (Fits s f.eth false → f.port.toNat ≠ s.img.aukorPort → all ((t.bump 0x70040).emit (.unreachable f.addr)))
    ∧ (Fits s f.eth false → f.port.toNat = s.img.aukorPort → aukorParse f.data = none → all (t.bump 0x70044))
    ∧ (∀ (x : AukorIn) (type : Nat), Arrives s f type x → type = 5 ∨ type = 8 →
      let drops := fun (a : Nat) =>
        (type = 5 → exec (.command ⟨f.eth, f.addr⟩ ⟨f.port, f.data⟩) s = .next (t.bump a)) ∧ (type = 8 → exec (.close f) s = .next (t.bump a))
      (s.slotOf x.h.session = none → drops 0x70048)
      ∧ (∀ j, s.slotOf x.h.session = some j → let y := s.sess j
        (x.tag ≠ frameTag y.c2m x.covered → drops 0x70048)
        ∧ (x.tag = frameTag y.c2m x.covered → x.h.counter ≤ y.cin → drops 0x7004C)
        ∧ (x.tag = frameTag y.c2m x.covered → y.cin < x.h.counter → x.h.ver ≠ y.ver.toNat → drops 0x70044))))

/-- R344 to R349: queue pairs and regions are made and taken away; a SEND fills the next free slot of its ring, an RDMA WRITE its place, an
RDMA READ is answered with bytes cut at the PMTU; each only where its checks allow. -/
def Obligations.QueuePairs : Prop :=
  (∀ (n : Nat) (l : List Byte), 0 < n → (cutAt n l).flatMap (fun p => p.2.2) = l ∧ (cutAt n l).map (fun p => p.1) = List.range (cutAt n l).length
    ∧ ∀ p, p ∈ cutAt n l → p.2.2.length ≤ n ∧ (p.2.1 = .first ∨ p.2.1 = .middle → p.2.2.length = n))
  ∧ ∀ (s : State),
    (∀ (hd : Head) (c : Cmd) (r : List Cmd) (a : QpArgs) (i : Fin 256),
      let ring := a.ringAddr.toNat
      let n := a.slotCount.toNat * 2 ^ a.slotLog2.toNat
      Executes s hd opQpCreate (argsQp a) c r → field a.notify 7 4 = 0 → a.ok = true → s.touchesProg ring n = false → s.accRange 0 ring n = .ok →
      s.ecc = [] → (s.qp i).exists_ = false → (∀ j : Fin 256, j < i → (s.qp j).exists_ = true) →
      ∃ (u : State) (qpn : Nat), exec (.qpCreate hd a) s = .next (u.respond c 0 (beBytes 4 qpn)) ∧ qpn % 256 = i.val ∧ qpn < 2 ^ 24
        ∧ (u.qp i).exists_ = true ∧ (u.qp i).qpn = qpn ∧ (u.qp i).peer = a.peerIp ∧ (u.qp i).ring = ring ∧ (u.qp i).err = false
        ∧ (∀ j, j ≠ i.val → u.qp j = s.qp j))
    ∧ (∀ (hd : Head) (c : Cmd) (r : List Cmd) (qpn : Word), Executes s hd opQpDestroy (beBytes 4 qpn.toNat) c r →
      (∀ i, s.qpOf qpn.toNat = some i → ∃ u : State, exec (.qpDestroy hd qpn) s = .next (u.respond c 0) ∧ u.qp i = {}
        ∧ (∀ j, j ≠ i → u.qp j = s.qp j) ∧ u.mem = s.mem)
      ∧ (s.qpOf qpn.toNat = none → exec (.qpDestroy hd qpn) s = .next ((left s r).respond c 2)))
    ∧ (∀ (hd : Head) (c : Cmd) (r : List Cmd) (addr len : DWord) (acc : Byte) (i : Fin 64),
      Executes s hd opMrReg (beBytes 8 addr.toNat ++ beBytes 8 len.toNat ++ beBytes 1 acc.toNat ++ zeros 3) c r →
      (mapGet {} s.host.mrs i : MrSt).exists_ = false → (∀ j : Fin 64, j < i → (mapGet {} s.host.mrs j : MrSt).exists_ = true) →
      ∃ (u : State) (key : Nat), exec (.mrReg hd addr len acc) s = .next (u.respond c 0 (beBytes 4 key)) ∧ u.mem = s.mem
        ∧ (mapGet {} u.host.mrs i : MrSt) = ⟨true, BitVec.ofNat 32 key, addr.toNat, len.toNat, acc.getLsbD 0, acc.getLsbD 1⟩)
    ∧ (∀ (hd : Head) (c : Cmd) (r : List Cmd) (k : Word), Executes s hd opMrDereg (beBytes 4 k.toNat) c r →
      (∀ p, s.mrOf k = some p → ∃ u : State, exec (.mrDereg hd k) s = .next (u.respond c 0) ∧ u.host.mrs = mapDel s.host.mrs p.1 ∧ u.mem = s.mem)
      ∧ (s.mrOf k = none → exec (.mrDereg hd k) s = .next ((left s r).respond c 2)))
    ∧ (∀ (b : RoceHead) (i : Nat), s.host.up = true → Fits s b.eth true → b.icrcOk = true → b.ce = false → s.qpOf b.qpn.toNat = some i →
      (s.qp i).peer = b.peer → (s.qp i).err = false → s.bulkPaused = false → s.ecc = [] →
      let q := s.qp i
      let t := took s b.eth true
      let replies := fun (u : State) (o : RoceOut) => u.ctl.out = t.ctl.out ++ [.roce q.peerQpn b.psn o]
      (∀ l : List Byte, b.psn = q.epsn → q.msg = none → q.wr = none → l.length ≤ q.pmtu → l.length + 8 ≤ 2 ^ q.slotLog2 →
        let a := q.slotAt q.nextSlot
        s.accRange 0 a (2 ^ q.slotLog2) = .ok →
        (leNat (s.bytes (a + 4) 4) ≠ 0xFFFFFFFF → ∃ u, exec (.roceSend b .only l) s = .next u ∧ replies u .rnr ∧ u.qp i = q ∧ u.mem = s.mem)
        ∧ (leNat (s.bytes (a + 4) 4) = 0xFFFFFFFF → a + 2 ^ q.slotLog2 ≤ dramBase →
          ∃ u, exec (.roceSend b .only l) s = .next u ∧ replies u .ack ∧ u.bytes a 4 = leBytes 4 l.length ∧ u.bytes (a + 4) 4 = leBytes 4 q.seq.toNat
            ∧ u.bytes (a + 8) l.length = l ∧ (∀ y, y < a ∨ a + 8 + l.length ≤ y → u.byte y = s.byte y) ∧ (u.qp i).epsn = q.epsn + 1
            ∧ (u.qp i).nextSlot = (q.nextSlot + 1) % q.slotCount))
      ∧ (∀ (va : DWord) (k n : Word) (l : List Byte), b.psn = q.epsn → q.msg = none → q.wr = none → l.length ≤ q.pmtu → n.toNat = l.length →
        (s.mrAllows k va.toNat l.length true = false →
          ∃ u, exec (.roceRdmaWrite b .only va k n l) s = .next u ∧ replies u .nakAccess ∧ u.mem = s.mem)
        ∧ (s.mrAllows k va.toNat l.length true = true → s.accRange 0 va.toNat l.length = .ok → va.toNat + l.length ≤ dramBase →
          ∃ u, exec (.roceRdmaWrite b .only va k n l) s = .next u ∧ replies u .ack ∧ u.bytes va.toNat l.length = l
            ∧ (∀ y, y < va.toNat ∨ va.toNat + l.length ≤ y → u.byte y = s.byte y) ∧ (u.qp i).epsn = q.epsn + 1))
      ∧ (∀ (va : DWord) (k n : Word), b.psn = q.epsn → q.msg = none → q.wr = none →
        (s.mrAllows k va.toNat n.toNat false = false → ∃ u, exec (.roceRdmaRead b va k n) s = .next u ∧ replies u .nakAccess ∧ u.mem = s.mem)
        ∧ (s.mrAllows k va.toNat n.toNat false = true → s.accRange 0 va.toNat n.toNat = .ok →
          ∃ u, exec (.roceRdmaRead b va k n) s = .next u ∧ u.mem = s.mem ∧ u.ctl.out = t.ctl.out
            ++ (cutAt q.pmtu (s.bytes va.toNat n.toNat)).map fun p => .roce q.peerQpn (b.psn + BitVec.ofNat 24 p.1) (.read p.2.1 p.2.2)))
      ∧ (∀ pay : List Byte, ∃ u, exec (.roceCnpRx b pay) s = .next u ∧ (u.qp i).rate = max 1000 (q.rate / 2) ∧ (u.qp i).cnpRx = some s.now
        ∧ (∀ j, j ≠ i → u.qp j = s.qp j) ∧ u.mem = s.mem))
    ∧ (∀ (qpn : BitVec 24) (i : Nat), s.qpOf qpn.toNat = some i →
      (∀ t, (s.qp i).cnpRx = some t → t + 55000 ≤ s.now →
        let top := if s.host.four then 800000 else 1600000
        ∃ u, exec (.roceRateRecover qpn) s = .next u ∧ (u.qp i).rate = min top ((s.qp i).rate + top / 16) ∧ (∀ j, j ≠ i → u.qp j = s.qp j)
          ∧ u.mem = s.mem))

/-- R341 to R346: the port trains on 8 or 4 lanes, and trains again when a lane fails; pause frames hold the bulk class back, and are sent as
its buffer fills and empties; ARP, Neighbor Discovery, ICMP and DHCP are answered; a frame that no step takes is dropped and counted. -/
def Obligations.HostPort : Prop :=
  ∀ (s : State),
    let host := fun (h : HostSt) => { s with host := h }
    let plus := fun (t : State) (m : OutMsg) => { t with ctl := { t.ctl with out := t.ctl.out ++ [m] } }
    let out := plus s
    (s.host.training = true → (s.raw 0x70004).getLsbD 0 = false →
      exec (.hostPortTrained 0xFF) s = .next (host { s.host with up := true, four := false, training := false }))
    ∧ (∀ l : Byte, s.host.training = true → s.host.trainAt + 500000000 ≤ s.now → l ≠ 0xFF →
      (l &&& 15 = 15 → exec (.hostTrainTimeout l) s = .next (host { s.host with up := true, four := true, training := false }))
      ∧ (l &&& 15 ≠ 15 → exec (.hostTrainTimeout l) s = .next (host { s.host with trainAt := s.now })))
    ∧ (s.host.up = true →
      exec .hostLaneFail s = .next (host { s.host with
        up := false, training := true, trainAt := s.now, paused := 0, waiting := [], fillMgmt := 0, fillBulk := 0, xoff := false })
      ∧ (∀ (p : Fin 8) (x : Bool), (s.raw 0x70004).getLsbD (24 + p.val) = true → field (s.raw 0x70004) 10 8 ≠ p.val →
          ∃ u, exec (.pauseFrameRx p x) s = .next u ∧ u.host.paused.getLsbD p = x
            ∧ { u with host := s.host, regs := s.regs, ctl := { u.ctl with out := s.ctl.out } } = s
            ∧ (∀ k, k ≠ p.val → u.host.paused.getLsbD k = s.host.paused.getLsbD k)
            ∧ (p.val = s.classPrio true → x = true → u.ctl = s.ctl ∧ u.host.waiting = s.host.waiting ∧ u.bulkPaused = true
                ∧ ∀ m, u.emitBulk m = { u with host := { u.host with waiting := s.host.waiting ++ [m] } })
            ∧ (p.val = s.classPrio true → x = false → u.ctl.out = s.ctl.out ++ s.host.waiting ∧ u.host.waiting = []))
      ∧ (∀ (p : Fin 8) (x : Bool), ((s.raw 0x70004).getLsbD (24 + p.val) = false ∨ field (s.raw 0x70004) 10 8 = p.val) →
          exec (.pauseFrameRx p x) s = .next (s.bump 0x70054))
      ∧ (exec (.hostFrameDrop .tcp) s = .next (s.bump 0x70040) ∧ exec (.hostFrameDrop .icrc) s = .next (s.bump 0x70050)
          ∧ exec (.hostFrameDrop .fcs) s = .next (s.bump 0x70064) ∧ exec (.hostFrameDrop .badAukor) s = .next (s.bump 0x70044))
      ∧ (∀ a : AddrPair, exec (.hostFrameDrop (.udpPort a)) s = .next (plus (s.bump 0x70040) (.unreachable a)))
      ∧ (∀ b : RoceHead, ¬Fits s b.eth true → exec (.hostFrameDrop (.roceOpcode b)) s = .next (s.bump 0x70040))
      ∧ (∀ (b : RoceHead) (i : Nat), Fits s b.eth true → b.icrcOk = true → b.ce = false → s.qpOf b.qpn.toNat = some i →
          (s.qp i).peer = b.peer → (s.qp i).err = false → s.bulkPaused = false →
          exec (.hostFrameDrop (.roceOpcode b)) s = .next (plus (took s b.eth true) (.roce (s.qp i).peerQpn b.psn .nakInvalid))))
    ∧ (s.pfcOn (s.classPrio true) = true →
      let p := s.classPrio true
      let pauses := fun (x : Bool) => s.watchBuf.ctl.out = s.ctl.out ++ [.pause p x] ∧ s.watchBuf.host = { s.host with xoff := x }
        ∧ s.watchBuf.raw 0x70058 = BitVec.ofNat 32 (satAdd 32 (s.raw 0x70058).toNat 1)
      (s.host.xoff = false → 1572864 < s.host.fillBulk → pauses true) ∧ (s.host.xoff = true → s.host.fillBulk < 1048576 → pauses false)
      ∧ (s.host.xoff = false → s.host.fillBulk ≤ 1572864 → s.watchBuf = s) ∧ (s.host.xoff = true → 1048576 ≤ s.host.fillBulk → s.watchBuf = s))
    ∧ (s.serves = true →
      (∀ f t : BitVec 32, (t ≠ 0 ∧ t = s.ip4 → exec (.arpFrame f t) s = .next (out (.arp f t)))
        ∧ (t ≠ s.ip4 → exec (.arpFrame f t) s = .next s))
      ∧ (∀ f : IpAddr, exec (.neighborDiscovery (.solicit s.ip6Local f)) s = .next (out (.neighbor f s.ip6Local)))
      ∧ (∀ p : BitVec 64, s.host.ip6 = none → exec (.neighborDiscovery (.routerAdv p)) s = .next (host { s.host with ip6 := some p }))
      ∧ (∀ (e : EthHead) (a : AddrPair) (d : List Byte), let t := took s e false
        (s.isMine a.module = true → Fits s e false → exec (.icmpEcho ⟨e, a⟩ d) s = .next (plus t (.echo a d)))
        ∧ (s.isMine a.module = true → ¬Fits s e false → exec (.icmpEcho ⟨e, a⟩ d) s = .next (s.bump 0x70040))
        ∧ (s.isMine a.module = false → exec (.icmpEcho ⟨e, a⟩ d) s = .next s))
      ∧ ((s.raw 0x70004).getLsbD 1 = true → ∀ (e : EthHead) (a : BitVec 32), Fits s e false → let t := took s e false
          exec (.dhcpMessage ⟨e, .offer a⟩) s = .next (plus t (.dhcpRequest a))
          ∧ (∃ u, exec (.dhcpMessage ⟨e, .ack a⟩) s = .next u ∧ u.host = { t.host with dhcp := a } ∧ u.mem = s.mem
              ∧ (∀ j : SlotId, a ≠ s.host.dhcp → (s.sess j).addr.module = mapped s.host.dhcp → (u.sess j).st = .free))
          ∧ (∃ u, exec (.dhcpMessage ⟨e, .nak⟩) s = .next u ∧ u.host = { t.host with dhcp := 0 } ∧ u.mem = s.mem)))
end

