-- ==== Sys2Proof/Laws/Sparse.lean ====
section
/-! SUPPORT. Laws of sparse maps: read after write, and the canonical form. -/

namespace Sys2Proof.Machine

variable {α : Type}

@[simp] theorem mapGet_nil (d : α) (k : Nat) : mapGet d [] k = d := rfl

theorem mapGet_ins_same (d : α) (m : Map α) (k : Nat) (v : α) : mapGet d (mapIns m k v) k = v := by
  induction m with
  | nil => simp [mapIns, mapGet]
  | cons p r ih =>
    obtain ⟨a, x⟩ := p
    by_cases h1 : k < a
    · simp [mapIns, mapGet, h1]
    · by_cases h2 : k = a
      · simp [mapIns, mapGet, h2]
      · simp [mapIns, mapGet, h1, h2, ih]

theorem mapGet_ins_other (d : α) (m : Map α) {k j : Nat} (v : α) (h : j ≠ k) : mapGet d (mapIns m k v) j = mapGet d m j := by
  induction m with
  | nil => simp [mapIns, mapGet, h]
  | cons p r ih =>
    obtain ⟨a, x⟩ := p
    by_cases h1 : k < a
    · simp [mapIns, mapGet, h1, h]
    · by_cases h2 : k = a
      · subst h2; simp [mapIns, mapGet, h]
      · by_cases h3 : j = a
        · simp [mapIns, mapGet, h1, h2, h3]
        · simp [mapIns, mapGet, h1, h2, h3, ih]

theorem mapGet_del_same (d : α) (m : Map α) (k : Nat) : mapGet d (mapDel m k) k = d := by
  induction m with
  | nil => rfl
  | cons p r ih =>
    obtain ⟨a, x⟩ := p
    by_cases h : k = a <;> simp [mapDel, mapGet, h]
    · subst h; exact ih
    · exact ih

theorem mapGet_del_other (d : α) (m : Map α) {k j : Nat} (h : j ≠ k) : mapGet d (mapDel m k) j = mapGet d m j := by
  induction m with
  | nil => rfl
  | cons p r ih =>
    obtain ⟨a, x⟩ := p
    by_cases h1 : k = a
    · subst h1; simp [mapDel, mapGet, h, ih]
    · by_cases h2 : j = a <;> simp [mapDel, mapGet, h1, h2, ih]

theorem mapDel_eq_filter (m : Map α) (k : Nat) : mapDel m k = m.filter fun p => decide (k ≠ p.1) := by
  induction m with
  | nil => rfl
  | cons p r ih =>
    obtain ⟨a, x⟩ := p
    by_cases h : k = a <;> simp [mapDel, h]
    · subst h; simpa using ih
    · simpa using ih

theorem mapIns_ins (m : Map α) (k : Nat) (v w : α) : mapIns (mapIns m k v) k w = mapIns m k w := by
  induction m with
  | nil => simp [mapIns]
  | cons p r ih =>
    obtain ⟨a, x⟩ := p
    by_cases h1 : k < a
    · simp [mapIns, h1]
    · by_cases h2 : k = a
      · simp [mapIns, h2]
      · simp [mapIns, h1, h2, ih]

theorem mapDel_del (m : Map α) (k : Nat) : mapDel (mapDel m k) k = mapDel m k := by
  induction m with
  | nil => rfl
  | cons p r ih =>
    obtain ⟨a, x⟩ := p
    by_cases h : k = a <;> simp [mapDel, h]
    · subst h; exact ih
    · exact ih

variable [DecidableEq α]

/-- A read after a write to the same key gives the value written. -/
@[simp] theorem mapGet_set_same (d : α) (m : Map α) (k : Nat) (v : α) : mapGet d (mapSet d m k v) k = v := by
  by_cases h : v = d
  · simp [mapSet, h, mapGet_del_same]
  · simp [mapSet, h, mapGet_ins_same]

/-- A write leaves every other key alone. -/
theorem mapGet_set_other (d : α) (m : Map α) {k j : Nat} (v : α) (h : j ≠ k) : mapGet d (mapSet d m k v) j = mapGet d m j := by
  by_cases hv : v = d
  · simp [mapSet, hv, mapGet_del_other d m h]
  · simp [mapSet, hv, mapGet_ins_other d m v h]

theorem mapGet_set (d : α) (m : Map α) (k j : Nat) (v : α) :
    mapGet d (mapSet d m k v) j = if j = k then v else mapGet d m j := by
  by_cases h : j = k
  · subst h; simp
  · simp [h, mapGet_set_other d m v h]

theorem mapWfFrom_ins (d : α) : ∀ (m : Map α) (b : Option Nat) (k : Nat) (v : α), v ≠ d → (∀ n, b = some n → n < k) →
    mapWfFrom d b m = true → mapWfFrom d b (mapIns m k v) = true
  | [], b, k, v, hv, hb, _ => by
    cases b <;> simp_all [mapIns, mapWfFrom]
  | (a, x) :: r, b, k, v, hv, hb, h => by
    simp only [mapWfFrom, Bool.and_eq_true] at h
    by_cases h1 : k < a
    · simp only [mapIns, h1, ↓reduceIte, mapWfFrom, Bool.and_eq_true]
      refine ⟨⟨?_, by simpa using hv⟩, ⟨by simpa using h1, h.1.2⟩, h.2⟩
      cases b <;> simp_all
    · by_cases h2 : k = a
      · subst h2
        simp only [mapIns, Nat.lt_irrefl, ↓reduceIte, mapWfFrom, Bool.and_eq_true]
        exact ⟨⟨h.1.1, by simpa using hv⟩, h.2⟩
      · simp only [mapIns, h1, h2, ↓reduceIte, mapWfFrom, Bool.and_eq_true]
        refine ⟨h.1, mapWfFrom_ins d r (some a) k v hv ?_ h.2⟩
        intro n hn; cases hn; omega

theorem mapWfFrom_weaken (d : α) (m : Map α) (b c : Nat) (hbc : c ≤ b) (h : mapWfFrom d (some b) m = true) :
    mapWfFrom d (some c) m = true := by
  cases m with
  | nil => rfl
  | cons p r =>
    obtain ⟨a, x⟩ := p
    simp only [mapWfFrom, Bool.and_eq_true, decide_eq_true_eq] at h ⊢
    exact ⟨⟨by omega, h.1.2⟩, h.2⟩

theorem mapWfFrom_none (d : α) (m : Map α) (b : Nat) (h : mapWfFrom d (some b) m = true) : mapWfFrom d none m = true := by
  cases m with
  | nil => rfl
  | cons p r => obtain ⟨a, x⟩ := p; simp_all [mapWfFrom]

theorem mapWfFrom_drop (d : α) (b : Option Nat) (a : Nat) (x : α) (r : Map α)
    (h : mapWfFrom d b ((a, x) :: r) = true) : mapWfFrom d b r = true := by
  simp only [mapWfFrom, Bool.and_eq_true] at h
  cases b with
  | none => exact mapWfFrom_none d r a h.2
  | some n => exact mapWfFrom_weaken d r a n (Nat.le_of_lt (by simpa using h.1.1)) h.2

theorem mapWfFrom_filter (d : α) (p : Nat × α → Bool) : ∀ (m : Map α) (b : Option Nat), mapWfFrom d b m = true →
    mapWfFrom d b (m.filter p) = true
  | [], _, _ => rfl
  | (a, x) :: r, b, h => by
    by_cases hp : p (a, x) = true
    · simp only [List.filter_cons, hp, ↓reduceIte, mapWfFrom, Bool.and_eq_true] at h ⊢
      exact ⟨h.1, mapWfFrom_filter d p r (some a) h.2⟩
    · simp only [List.filter_cons, hp]
      exact mapWfFrom_filter d p r b (mapWfFrom_drop d b a x r h)

/-- A write keeps the canonical form. -/
theorem mapWf_set (d : α) (m : Map α) (k : Nat) (v : α) (h : mapWf d m = true) : mapWf d (mapSet d m k v) = true := by
  by_cases hv : v = d
  · simp only [mapWf, mapSet, hv, ↓reduceIte, mapDel_eq_filter]
    exact mapWfFrom_filter d _ m none h
  · simp only [mapWf, mapSet, hv, ↓reduceIte]
    exact mapWfFrom_ins d m none k v hv (by simp) h

/-- Leaving entries out keeps the canonical form. -/
theorem mapWf_filter (d : α) (m : Map α) (p : Nat × α → Bool) (h : mapWf d m = true) : mapWf d (m.filter p) = true :=
  mapWfFrom_filter d p m none h

end Sys2Proof.Machine
end

