-- ==== Sys2Proof/Laws/State.lean ====
section
/-! SUPPORT. What each update of the state leaves as it was, one lemma for each update and field,
true by definition, and one that says that nothing but its own field changes. -/

namespace Sys2Proof.Machine

/-! ## setRaw -/

@[simp] theorem State.setRaw_pending (s : State) (a : Nat) (v : Word) : (s.setRaw a v).pending = s.pending := rfl
@[simp] theorem State.setRaw_now (s : State) (a : Nat) (v : Word) : (s.setRaw a v).now = s.now := rfl
@[simp] theorem State.setRaw_mem (s : State) (a : Nat) (v : Word) : (s.setRaw a v).mem = s.mem := rfl
@[simp] theorem State.setRaw_ecc (s : State) (a : Nat) (v : Word) : (s.setRaw a v).ecc = s.ecc := rfl
@[simp] theorem State.setRaw_regions (s : State) (a : Nat) (v : Word) : (s.setRaw a v).regions = s.regions := rfl
@[simp] theorem State.setRaw_stacks (s : State) (a : Nat) (v : Word) : (s.setRaw a v).stks = s.stks := rfl
@[simp] theorem State.setRaw_ev (s : State) (a : Nat) (v : Word) : (s.setRaw a v).ev = s.ev := rfl
@[simp] theorem State.setRaw_cores (s : State) (a : Nat) (v : Word) : (s.setRaw a v).cores = s.cores := rfl
@[simp] theorem State.setRaw_step (s : State) (a : Nat) (v : Word) : (s.setRaw a v).step = s.step := rfl
@[simp] theorem State.setRaw_rt (s : State) (a : Nat) (v : Word) : (s.setRaw a v).rt = s.rt := rfl
@[simp] theorem State.setRaw_links (s : State) (a : Nat) (v : Word) : (s.setRaw a v).links = s.links := rfl
@[simp] theorem State.setRaw_ctl (s : State) (a : Nat) (v : Word) : (s.setRaw a v).ctl = s.ctl := rfl
@[simp] theorem State.setRaw_sec (s : State) (a : Nat) (v : Word) : (s.setRaw a v).sec = s.sec := rfl
@[simp] theorem State.setRaw_fuse (s : State) (a : Nat) (v : Word) : (s.setRaw a v).fuse = s.fuse := rfl
theorem State.setRaw_frame (s : State) (a : Nat) (v : Word) : { s.setRaw a v with regs := s.regs } = s := rfl

/-! ## bump -/

@[simp] theorem State.bump_pending (s : State) (a : Nat) : (s.bump a).pending = s.pending := rfl
@[simp] theorem State.bump_now (s : State) (a : Nat) : (s.bump a).now = s.now := rfl
@[simp] theorem State.bump_mem (s : State) (a : Nat) : (s.bump a).mem = s.mem := rfl
@[simp] theorem State.bump_ecc (s : State) (a : Nat) : (s.bump a).ecc = s.ecc := rfl
@[simp] theorem State.bump_regions (s : State) (a : Nat) : (s.bump a).regions = s.regions := rfl
@[simp] theorem State.bump_stacks (s : State) (a : Nat) : (s.bump a).stks = s.stks := rfl
@[simp] theorem State.bump_ev (s : State) (a : Nat) : (s.bump a).ev = s.ev := rfl
@[simp] theorem State.bump_cores (s : State) (a : Nat) : (s.bump a).cores = s.cores := rfl
@[simp] theorem State.bump_step (s : State) (a : Nat) : (s.bump a).step = s.step := rfl
@[simp] theorem State.bump_rt (s : State) (a : Nat) : (s.bump a).rt = s.rt := rfl
@[simp] theorem State.bump_links (s : State) (a : Nat) : (s.bump a).links = s.links := rfl
@[simp] theorem State.bump_ctl (s : State) (a : Nat) : (s.bump a).ctl = s.ctl := rfl
@[simp] theorem State.bump_sec (s : State) (a : Nat) : (s.bump a).sec = s.sec := rfl
@[simp] theorem State.bump_fuse (s : State) (a : Nat) : (s.bump a).fuse = s.fuse := rfl
theorem State.bump_frame (s : State) (a : Nat) : { s.bump a with regs := s.regs } = s := rfl

/-! ## bumpFree -/

@[simp] theorem State.bumpFree_pending (s : State) (n : Nat) : (s.bumpFree n).pending = s.pending := rfl
@[simp] theorem State.bumpFree_now (s : State) (n : Nat) : (s.bumpFree n).now = s.now := rfl
@[simp] theorem State.bumpFree_regs (s : State) (n : Nat) : (s.bumpFree n).regs = s.regs := rfl
@[simp] theorem State.bumpFree_mem (s : State) (n : Nat) : (s.bumpFree n).mem = s.mem := rfl
@[simp] theorem State.bumpFree_ecc (s : State) (n : Nat) : (s.bumpFree n).ecc = s.ecc := rfl
@[simp] theorem State.bumpFree_regions (s : State) (n : Nat) : (s.bumpFree n).regions = s.regions := rfl
@[simp] theorem State.bumpFree_stacks (s : State) (n : Nat) : (s.bumpFree n).stks = s.stks := rfl
@[simp] theorem State.bumpFree_ev (s : State) (n : Nat) : (s.bumpFree n).ev = s.ev := rfl
@[simp] theorem State.bumpFree_cores (s : State) (n : Nat) : (s.bumpFree n).cores = s.cores := rfl
@[simp] theorem State.bumpFree_step (s : State) (n : Nat) : (s.bumpFree n).step = s.step := rfl
@[simp] theorem State.bumpFree_rt (s : State) (n : Nat) : (s.bumpFree n).rt = s.rt := rfl
@[simp] theorem State.bumpFree_links (s : State) (n : Nat) : (s.bumpFree n).links = s.links := rfl
@[simp] theorem State.bumpFree_ctl (s : State) (n : Nat) : (s.bumpFree n).ctl = s.ctl := rfl
@[simp] theorem State.bumpFree_sec (s : State) (n : Nat) : (s.bumpFree n).sec = s.sec := rfl
@[simp] theorem State.bumpFree_fuse (s : State) (n : Nat) : (s.bumpFree n).fuse = s.fuse := rfl
theorem State.bumpFree_frame (s : State) (n : Nat) : { s.bumpFree n with freeCtr := s.freeCtr } = s := rfl

/-! ## setCore -/

@[simp] theorem State.setCore_pending (s : State) (c : Nat) (k : CoreSt) : (s.setCore c k).pending = s.pending := rfl
@[simp] theorem State.setCore_now (s : State) (c : Nat) (k : CoreSt) : (s.setCore c k).now = s.now := rfl
@[simp] theorem State.setCore_regs (s : State) (c : Nat) (k : CoreSt) : (s.setCore c k).regs = s.regs := rfl
@[simp] theorem State.setCore_mem (s : State) (c : Nat) (k : CoreSt) : (s.setCore c k).mem = s.mem := rfl
@[simp] theorem State.setCore_ecc (s : State) (c : Nat) (k : CoreSt) : (s.setCore c k).ecc = s.ecc := rfl
@[simp] theorem State.setCore_regions (s : State) (c : Nat) (k : CoreSt) : (s.setCore c k).regions = s.regions := rfl
@[simp] theorem State.setCore_stacks (s : State) (c : Nat) (k : CoreSt) : (s.setCore c k).stks = s.stks := rfl
@[simp] theorem State.setCore_ev (s : State) (c : Nat) (k : CoreSt) : (s.setCore c k).ev = s.ev := rfl
@[simp] theorem State.setCore_step (s : State) (c : Nat) (k : CoreSt) : (s.setCore c k).step = s.step := rfl
@[simp] theorem State.setCore_rt (s : State) (c : Nat) (k : CoreSt) : (s.setCore c k).rt = s.rt := rfl
@[simp] theorem State.setCore_links (s : State) (c : Nat) (k : CoreSt) : (s.setCore c k).links = s.links := rfl
@[simp] theorem State.setCore_ctl (s : State) (c : Nat) (k : CoreSt) : (s.setCore c k).ctl = s.ctl := rfl
@[simp] theorem State.setCore_sec (s : State) (c : Nat) (k : CoreSt) : (s.setCore c k).sec = s.sec := rfl
@[simp] theorem State.setCore_fuse (s : State) (c : Nat) (k : CoreSt) : (s.setCore c k).fuse = s.fuse := rfl
theorem State.setCore_frame (s : State) (c : Nat) (k : CoreSt) : { s.setCore c k with cores := s.cores } = s := rfl

/-! ## modCore -/

@[simp] theorem State.modCore_pending (s : State) (c : Nat) (f : CoreSt → CoreSt) : (s.modCore c f).pending = s.pending := rfl
@[simp] theorem State.modCore_now (s : State) (c : Nat) (f : CoreSt → CoreSt) : (s.modCore c f).now = s.now := rfl
@[simp] theorem State.modCore_regs (s : State) (c : Nat) (f : CoreSt → CoreSt) : (s.modCore c f).regs = s.regs := rfl
@[simp] theorem State.modCore_mem (s : State) (c : Nat) (f : CoreSt → CoreSt) : (s.modCore c f).mem = s.mem := rfl
@[simp] theorem State.modCore_ecc (s : State) (c : Nat) (f : CoreSt → CoreSt) : (s.modCore c f).ecc = s.ecc := rfl
@[simp] theorem State.modCore_regions (s : State) (c : Nat) (f : CoreSt → CoreSt) : (s.modCore c f).regions = s.regions := rfl
@[simp] theorem State.modCore_stacks (s : State) (c : Nat) (f : CoreSt → CoreSt) : (s.modCore c f).stks = s.stks := rfl
@[simp] theorem State.modCore_ev (s : State) (c : Nat) (f : CoreSt → CoreSt) : (s.modCore c f).ev = s.ev := rfl
@[simp] theorem State.modCore_step (s : State) (c : Nat) (f : CoreSt → CoreSt) : (s.modCore c f).step = s.step := rfl
@[simp] theorem State.modCore_rt (s : State) (c : Nat) (f : CoreSt → CoreSt) : (s.modCore c f).rt = s.rt := rfl
@[simp] theorem State.modCore_links (s : State) (c : Nat) (f : CoreSt → CoreSt) : (s.modCore c f).links = s.links := rfl
@[simp] theorem State.modCore_ctl (s : State) (c : Nat) (f : CoreSt → CoreSt) : (s.modCore c f).ctl = s.ctl := rfl
@[simp] theorem State.modCore_sec (s : State) (c : Nat) (f : CoreSt → CoreSt) : (s.modCore c f).sec = s.sec := rfl
@[simp] theorem State.modCore_fuse (s : State) (c : Nat) (f : CoreSt → CoreSt) : (s.modCore c f).fuse = s.fuse := rfl
theorem State.modCore_frame (s : State) (c : Nat) (f : CoreSt → CoreSt) : { s.modCore c f with cores := s.cores } = s := rfl

/-! ## setThread -/

@[simp] theorem State.setThread_pending (s : State) (c t : Nat) (x : ThreadSt) : (s.setThread c t x).pending = s.pending := rfl
@[simp] theorem State.setThread_now (s : State) (c t : Nat) (x : ThreadSt) : (s.setThread c t x).now = s.now := rfl
@[simp] theorem State.setThread_regs (s : State) (c t : Nat) (x : ThreadSt) : (s.setThread c t x).regs = s.regs := rfl
@[simp] theorem State.setThread_mem (s : State) (c t : Nat) (x : ThreadSt) : (s.setThread c t x).mem = s.mem := rfl
@[simp] theorem State.setThread_ecc (s : State) (c t : Nat) (x : ThreadSt) : (s.setThread c t x).ecc = s.ecc := rfl
@[simp] theorem State.setThread_regions (s : State) (c t : Nat) (x : ThreadSt) : (s.setThread c t x).regions = s.regions := rfl
@[simp] theorem State.setThread_stacks (s : State) (c t : Nat) (x : ThreadSt) : (s.setThread c t x).stks = s.stks := rfl
@[simp] theorem State.setThread_ev (s : State) (c t : Nat) (x : ThreadSt) : (s.setThread c t x).ev = s.ev := rfl
@[simp] theorem State.setThread_step (s : State) (c t : Nat) (x : ThreadSt) : (s.setThread c t x).step = s.step := rfl
@[simp] theorem State.setThread_rt (s : State) (c t : Nat) (x : ThreadSt) : (s.setThread c t x).rt = s.rt := rfl
@[simp] theorem State.setThread_links (s : State) (c t : Nat) (x : ThreadSt) : (s.setThread c t x).links = s.links := rfl
@[simp] theorem State.setThread_ctl (s : State) (c t : Nat) (x : ThreadSt) : (s.setThread c t x).ctl = s.ctl := rfl
@[simp] theorem State.setThread_sec (s : State) (c t : Nat) (x : ThreadSt) : (s.setThread c t x).sec = s.sec := rfl
@[simp] theorem State.setThread_fuse (s : State) (c t : Nat) (x : ThreadSt) : (s.setThread c t x).fuse = s.fuse := rfl
theorem State.setThread_frame (s : State) (c t : Nat) (x : ThreadSt) : { s.setThread c t x with cores := s.cores } = s := rfl

/-! ## modThread -/

@[simp] theorem State.modThread_pending (s : State) (c t : Nat) (f : ThreadSt → ThreadSt) : (s.modThread c t f).pending = s.pending := rfl
@[simp] theorem State.modThread_now (s : State) (c t : Nat) (f : ThreadSt → ThreadSt) : (s.modThread c t f).now = s.now := rfl
@[simp] theorem State.modThread_regs (s : State) (c t : Nat) (f : ThreadSt → ThreadSt) : (s.modThread c t f).regs = s.regs := rfl
@[simp] theorem State.modThread_mem (s : State) (c t : Nat) (f : ThreadSt → ThreadSt) : (s.modThread c t f).mem = s.mem := rfl
@[simp] theorem State.modThread_ecc (s : State) (c t : Nat) (f : ThreadSt → ThreadSt) : (s.modThread c t f).ecc = s.ecc := rfl
@[simp] theorem State.modThread_regions (s : State) (c t : Nat) (f : ThreadSt → ThreadSt) : (s.modThread c t f).regions = s.regions := rfl
@[simp] theorem State.modThread_stacks (s : State) (c t : Nat) (f : ThreadSt → ThreadSt) : (s.modThread c t f).stks = s.stks := rfl
@[simp] theorem State.modThread_ev (s : State) (c t : Nat) (f : ThreadSt → ThreadSt) : (s.modThread c t f).ev = s.ev := rfl
@[simp] theorem State.modThread_step (s : State) (c t : Nat) (f : ThreadSt → ThreadSt) : (s.modThread c t f).step = s.step := rfl
@[simp] theorem State.modThread_rt (s : State) (c t : Nat) (f : ThreadSt → ThreadSt) : (s.modThread c t f).rt = s.rt := rfl
@[simp] theorem State.modThread_links (s : State) (c t : Nat) (f : ThreadSt → ThreadSt) : (s.modThread c t f).links = s.links := rfl
@[simp] theorem State.modThread_ctl (s : State) (c t : Nat) (f : ThreadSt → ThreadSt) : (s.modThread c t f).ctl = s.ctl := rfl
@[simp] theorem State.modThread_sec (s : State) (c t : Nat) (f : ThreadSt → ThreadSt) : (s.modThread c t f).sec = s.sec := rfl
@[simp] theorem State.modThread_fuse (s : State) (c t : Nat) (f : ThreadSt → ThreadSt) : (s.modThread c t f).fuse = s.fuse := rfl
theorem State.modThread_frame (s : State) (c t : Nat) (f : ThreadSt → ThreadSt) : { s.modThread c t f with cores := s.cores } = s := rfl

/-! ## setSlot -/

@[simp] theorem State.setSlot_pending (s : State) (c i : Nat) (m : Option RunMove) : (s.setSlot c i m).pending = s.pending := rfl
@[simp] theorem State.setSlot_now (s : State) (c i : Nat) (m : Option RunMove) : (s.setSlot c i m).now = s.now := rfl
@[simp] theorem State.setSlot_regs (s : State) (c i : Nat) (m : Option RunMove) : (s.setSlot c i m).regs = s.regs := rfl
@[simp] theorem State.setSlot_mem (s : State) (c i : Nat) (m : Option RunMove) : (s.setSlot c i m).mem = s.mem := rfl
@[simp] theorem State.setSlot_ecc (s : State) (c i : Nat) (m : Option RunMove) : (s.setSlot c i m).ecc = s.ecc := rfl
@[simp] theorem State.setSlot_regions (s : State) (c i : Nat) (m : Option RunMove) : (s.setSlot c i m).regions = s.regions := rfl
@[simp] theorem State.setSlot_stacks (s : State) (c i : Nat) (m : Option RunMove) : (s.setSlot c i m).stks = s.stks := rfl
@[simp] theorem State.setSlot_ev (s : State) (c i : Nat) (m : Option RunMove) : (s.setSlot c i m).ev = s.ev := rfl
@[simp] theorem State.setSlot_step (s : State) (c i : Nat) (m : Option RunMove) : (s.setSlot c i m).step = s.step := rfl
@[simp] theorem State.setSlot_rt (s : State) (c i : Nat) (m : Option RunMove) : (s.setSlot c i m).rt = s.rt := rfl
@[simp] theorem State.setSlot_links (s : State) (c i : Nat) (m : Option RunMove) : (s.setSlot c i m).links = s.links := rfl
@[simp] theorem State.setSlot_ctl (s : State) (c i : Nat) (m : Option RunMove) : (s.setSlot c i m).ctl = s.ctl := rfl
@[simp] theorem State.setSlot_sec (s : State) (c i : Nat) (m : Option RunMove) : (s.setSlot c i m).sec = s.sec := rfl
@[simp] theorem State.setSlot_fuse (s : State) (c i : Nat) (m : Option RunMove) : (s.setSlot c i m).fuse = s.fuse := rfl
theorem State.setSlot_frame (s : State) (c i : Nat) (m : Option RunMove) : { s.setSlot c i m with cores := s.cores } = s := rfl

/-! ## modHalf -/

@[simp] theorem State.modHalf_pending (s : State) (h : Nat) (f : HalfSt → HalfSt) : (s.modHalf h f).pending = s.pending := rfl
@[simp] theorem State.modHalf_now (s : State) (h : Nat) (f : HalfSt → HalfSt) : (s.modHalf h f).now = s.now := rfl
@[simp] theorem State.modHalf_regs (s : State) (h : Nat) (f : HalfSt → HalfSt) : (s.modHalf h f).regs = s.regs := rfl
@[simp] theorem State.modHalf_mem (s : State) (h : Nat) (f : HalfSt → HalfSt) : (s.modHalf h f).mem = s.mem := rfl
@[simp] theorem State.modHalf_ecc (s : State) (h : Nat) (f : HalfSt → HalfSt) : (s.modHalf h f).ecc = s.ecc := rfl
@[simp] theorem State.modHalf_regions (s : State) (h : Nat) (f : HalfSt → HalfSt) : (s.modHalf h f).regions = s.regions := rfl
@[simp] theorem State.modHalf_stacks (s : State) (h : Nat) (f : HalfSt → HalfSt) : (s.modHalf h f).stks = s.stks := rfl
@[simp] theorem State.modHalf_ev (s : State) (h : Nat) (f : HalfSt → HalfSt) : (s.modHalf h f).ev = s.ev := rfl
@[simp] theorem State.modHalf_cores (s : State) (h : Nat) (f : HalfSt → HalfSt) : (s.modHalf h f).cores = s.cores := rfl
@[simp] theorem State.modHalf_step (s : State) (h : Nat) (f : HalfSt → HalfSt) : (s.modHalf h f).step = s.step := rfl
@[simp] theorem State.modHalf_rt (s : State) (h : Nat) (f : HalfSt → HalfSt) : (s.modHalf h f).rt = s.rt := rfl
@[simp] theorem State.modHalf_links (s : State) (h : Nat) (f : HalfSt → HalfSt) : (s.modHalf h f).links = s.links := rfl
@[simp] theorem State.modHalf_ctl (s : State) (h : Nat) (f : HalfSt → HalfSt) : (s.modHalf h f).ctl = s.ctl := rfl
@[simp] theorem State.modHalf_sec (s : State) (h : Nat) (f : HalfSt → HalfSt) : (s.modHalf h f).sec = s.sec := rfl
@[simp] theorem State.modHalf_fuse (s : State) (h : Nat) (f : HalfSt → HalfSt) : (s.modHalf h f).fuse = s.fuse := rfl
theorem State.modHalf_frame (s : State) (h : Nat) (f : HalfSt → HalfSt) : { s.modHalf h f with halves := s.halves } = s := rfl

/-! ## modStack -/

@[simp] theorem State.modStack_pending (s : State) (j : Nat) (f : StackSt → StackSt) : (s.modStack j f).pending = s.pending := rfl
@[simp] theorem State.modStack_now (s : State) (j : Nat) (f : StackSt → StackSt) : (s.modStack j f).now = s.now := rfl
@[simp] theorem State.modStack_regs (s : State) (j : Nat) (f : StackSt → StackSt) : (s.modStack j f).regs = s.regs := rfl
@[simp] theorem State.modStack_mem (s : State) (j : Nat) (f : StackSt → StackSt) : (s.modStack j f).mem = s.mem := rfl
@[simp] theorem State.modStack_ecc (s : State) (j : Nat) (f : StackSt → StackSt) : (s.modStack j f).ecc = s.ecc := rfl
@[simp] theorem State.modStack_regions (s : State) (j : Nat) (f : StackSt → StackSt) : (s.modStack j f).regions = s.regions := rfl
@[simp] theorem State.modStack_ev (s : State) (j : Nat) (f : StackSt → StackSt) : (s.modStack j f).ev = s.ev := rfl
@[simp] theorem State.modStack_cores (s : State) (j : Nat) (f : StackSt → StackSt) : (s.modStack j f).cores = s.cores := rfl
@[simp] theorem State.modStack_step (s : State) (j : Nat) (f : StackSt → StackSt) : (s.modStack j f).step = s.step := rfl
@[simp] theorem State.modStack_rt (s : State) (j : Nat) (f : StackSt → StackSt) : (s.modStack j f).rt = s.rt := rfl
@[simp] theorem State.modStack_links (s : State) (j : Nat) (f : StackSt → StackSt) : (s.modStack j f).links = s.links := rfl
@[simp] theorem State.modStack_ctl (s : State) (j : Nat) (f : StackSt → StackSt) : (s.modStack j f).ctl = s.ctl := rfl
@[simp] theorem State.modStack_sec (s : State) (j : Nat) (f : StackSt → StackSt) : (s.modStack j f).sec = s.sec := rfl
@[simp] theorem State.modStack_fuse (s : State) (j : Nat) (f : StackSt → StackSt) : (s.modStack j f).fuse = s.fuse := rfl
theorem State.modStack_frame (s : State) (j : Nat) (f : StackSt → StackSt) : { s.modStack j f with stks := s.stks } = s := rfl

/-! ## modLink -/

@[simp] theorem State.modLink_pending (s : State) (l : Nat) (f : LinkSt → LinkSt) : (s.modLink l f).pending = s.pending := rfl
@[simp] theorem State.modLink_now (s : State) (l : Nat) (f : LinkSt → LinkSt) : (s.modLink l f).now = s.now := rfl
@[simp] theorem State.modLink_regs (s : State) (l : Nat) (f : LinkSt → LinkSt) : (s.modLink l f).regs = s.regs := rfl
@[simp] theorem State.modLink_mem (s : State) (l : Nat) (f : LinkSt → LinkSt) : (s.modLink l f).mem = s.mem := rfl
@[simp] theorem State.modLink_ecc (s : State) (l : Nat) (f : LinkSt → LinkSt) : (s.modLink l f).ecc = s.ecc := rfl
@[simp] theorem State.modLink_regions (s : State) (l : Nat) (f : LinkSt → LinkSt) : (s.modLink l f).regions = s.regions := rfl
@[simp] theorem State.modLink_stacks (s : State) (l : Nat) (f : LinkSt → LinkSt) : (s.modLink l f).stks = s.stks := rfl
@[simp] theorem State.modLink_ev (s : State) (l : Nat) (f : LinkSt → LinkSt) : (s.modLink l f).ev = s.ev := rfl
@[simp] theorem State.modLink_cores (s : State) (l : Nat) (f : LinkSt → LinkSt) : (s.modLink l f).cores = s.cores := rfl
@[simp] theorem State.modLink_step (s : State) (l : Nat) (f : LinkSt → LinkSt) : (s.modLink l f).step = s.step := rfl
@[simp] theorem State.modLink_rt (s : State) (l : Nat) (f : LinkSt → LinkSt) : (s.modLink l f).rt = s.rt := rfl
@[simp] theorem State.modLink_ctl (s : State) (l : Nat) (f : LinkSt → LinkSt) : (s.modLink l f).ctl = s.ctl := rfl
@[simp] theorem State.modLink_sec (s : State) (l : Nat) (f : LinkSt → LinkSt) : (s.modLink l f).sec = s.sec := rfl
@[simp] theorem State.modLink_fuse (s : State) (l : Nat) (f : LinkSt → LinkSt) : (s.modLink l f).fuse = s.fuse := rfl
theorem State.modLink_frame (s : State) (l : Nat) (f : LinkSt → LinkSt) : { s.modLink l f with links := s.links } = s := rfl

/-! ## modSess -/

@[simp] theorem State.modSess_pending (s : State) (i : Nat) (f : SessSt → SessSt) : (s.modSess i f).pending = s.pending := rfl
@[simp] theorem State.modSess_now (s : State) (i : Nat) (f : SessSt → SessSt) : (s.modSess i f).now = s.now := rfl
@[simp] theorem State.modSess_regs (s : State) (i : Nat) (f : SessSt → SessSt) : (s.modSess i f).regs = s.regs := rfl
@[simp] theorem State.modSess_mem (s : State) (i : Nat) (f : SessSt → SessSt) : (s.modSess i f).mem = s.mem := rfl
@[simp] theorem State.modSess_ecc (s : State) (i : Nat) (f : SessSt → SessSt) : (s.modSess i f).ecc = s.ecc := rfl
@[simp] theorem State.modSess_regions (s : State) (i : Nat) (f : SessSt → SessSt) : (s.modSess i f).regions = s.regions := rfl
@[simp] theorem State.modSess_stacks (s : State) (i : Nat) (f : SessSt → SessSt) : (s.modSess i f).stks = s.stks := rfl
@[simp] theorem State.modSess_ev (s : State) (i : Nat) (f : SessSt → SessSt) : (s.modSess i f).ev = s.ev := rfl
@[simp] theorem State.modSess_cores (s : State) (i : Nat) (f : SessSt → SessSt) : (s.modSess i f).cores = s.cores := rfl
@[simp] theorem State.modSess_step (s : State) (i : Nat) (f : SessSt → SessSt) : (s.modSess i f).step = s.step := rfl
@[simp] theorem State.modSess_rt (s : State) (i : Nat) (f : SessSt → SessSt) : (s.modSess i f).rt = s.rt := rfl
@[simp] theorem State.modSess_links (s : State) (i : Nat) (f : SessSt → SessSt) : (s.modSess i f).links = s.links := rfl
@[simp] theorem State.modSess_sec (s : State) (i : Nat) (f : SessSt → SessSt) : (s.modSess i f).sec = s.sec := rfl
@[simp] theorem State.modSess_fuse (s : State) (i : Nat) (f : SessSt → SessSt) : (s.modSess i f).fuse = s.fuse := rfl
theorem State.modSess_frame (s : State) (i : Nat) (f : SessSt → SessSt) : { s.modSess i f with ctl := s.ctl } = s := rfl

/-! ## modCtl -/

@[simp] theorem State.modCtl_pending (s : State) (f : CtlSt → CtlSt) : (s.modCtl f).pending = s.pending := rfl
@[simp] theorem State.modCtl_now (s : State) (f : CtlSt → CtlSt) : (s.modCtl f).now = s.now := rfl
@[simp] theorem State.modCtl_regs (s : State) (f : CtlSt → CtlSt) : (s.modCtl f).regs = s.regs := rfl
@[simp] theorem State.modCtl_mem (s : State) (f : CtlSt → CtlSt) : (s.modCtl f).mem = s.mem := rfl
@[simp] theorem State.modCtl_ecc (s : State) (f : CtlSt → CtlSt) : (s.modCtl f).ecc = s.ecc := rfl
@[simp] theorem State.modCtl_regions (s : State) (f : CtlSt → CtlSt) : (s.modCtl f).regions = s.regions := rfl
@[simp] theorem State.modCtl_stacks (s : State) (f : CtlSt → CtlSt) : (s.modCtl f).stks = s.stks := rfl
@[simp] theorem State.modCtl_ev (s : State) (f : CtlSt → CtlSt) : (s.modCtl f).ev = s.ev := rfl
@[simp] theorem State.modCtl_cores (s : State) (f : CtlSt → CtlSt) : (s.modCtl f).cores = s.cores := rfl
@[simp] theorem State.modCtl_step (s : State) (f : CtlSt → CtlSt) : (s.modCtl f).step = s.step := rfl
@[simp] theorem State.modCtl_rt (s : State) (f : CtlSt → CtlSt) : (s.modCtl f).rt = s.rt := rfl
@[simp] theorem State.modCtl_links (s : State) (f : CtlSt → CtlSt) : (s.modCtl f).links = s.links := rfl
@[simp] theorem State.modCtl_sec (s : State) (f : CtlSt → CtlSt) : (s.modCtl f).sec = s.sec := rfl
@[simp] theorem State.modCtl_fuse (s : State) (f : CtlSt → CtlSt) : (s.modCtl f).fuse = s.fuse := rfl
theorem State.modCtl_frame (s : State) (f : CtlSt → CtlSt) : { s.modCtl f with ctl := s.ctl } = s := rfl

/-! ## emit -/

@[simp] theorem State.emit_pending (s : State) (m : OutMsg) : (s.emit m).pending = s.pending := rfl
@[simp] theorem State.emit_now (s : State) (m : OutMsg) : (s.emit m).now = s.now := rfl
@[simp] theorem State.emit_regs (s : State) (m : OutMsg) : (s.emit m).regs = s.regs := rfl
@[simp] theorem State.emit_mem (s : State) (m : OutMsg) : (s.emit m).mem = s.mem := rfl
@[simp] theorem State.emit_ecc (s : State) (m : OutMsg) : (s.emit m).ecc = s.ecc := rfl
@[simp] theorem State.emit_regions (s : State) (m : OutMsg) : (s.emit m).regions = s.regions := rfl
@[simp] theorem State.emit_stacks (s : State) (m : OutMsg) : (s.emit m).stks = s.stks := rfl
@[simp] theorem State.emit_ev (s : State) (m : OutMsg) : (s.emit m).ev = s.ev := rfl
@[simp] theorem State.emit_cores (s : State) (m : OutMsg) : (s.emit m).cores = s.cores := rfl
@[simp] theorem State.emit_step (s : State) (m : OutMsg) : (s.emit m).step = s.step := rfl
@[simp] theorem State.emit_rt (s : State) (m : OutMsg) : (s.emit m).rt = s.rt := rfl
@[simp] theorem State.emit_links (s : State) (m : OutMsg) : (s.emit m).links = s.links := rfl
@[simp] theorem State.emit_sec (s : State) (m : OutMsg) : (s.emit m).sec = s.sec := rfl
@[simp] theorem State.emit_fuse (s : State) (m : OutMsg) : (s.emit m).fuse = s.fuse := rfl
theorem State.emit_frame (s : State) (m : OutMsg) : { s.emit m with ctl := s.ctl } = s := rfl

/-! ## modPwr -/

@[simp] theorem State.modPwr_pending (s : State) (f : PwrSt → PwrSt) : (s.modPwr f).pending = s.pending := rfl
@[simp] theorem State.modPwr_now (s : State) (f : PwrSt → PwrSt) : (s.modPwr f).now = s.now := rfl
@[simp] theorem State.modPwr_regs (s : State) (f : PwrSt → PwrSt) : (s.modPwr f).regs = s.regs := rfl
@[simp] theorem State.modPwr_mem (s : State) (f : PwrSt → PwrSt) : (s.modPwr f).mem = s.mem := rfl
@[simp] theorem State.modPwr_ecc (s : State) (f : PwrSt → PwrSt) : (s.modPwr f).ecc = s.ecc := rfl
@[simp] theorem State.modPwr_regions (s : State) (f : PwrSt → PwrSt) : (s.modPwr f).regions = s.regions := rfl
@[simp] theorem State.modPwr_stacks (s : State) (f : PwrSt → PwrSt) : (s.modPwr f).stks = s.stks := rfl
@[simp] theorem State.modPwr_ev (s : State) (f : PwrSt → PwrSt) : (s.modPwr f).ev = s.ev := rfl
@[simp] theorem State.modPwr_cores (s : State) (f : PwrSt → PwrSt) : (s.modPwr f).cores = s.cores := rfl
@[simp] theorem State.modPwr_step (s : State) (f : PwrSt → PwrSt) : (s.modPwr f).step = s.step := rfl
@[simp] theorem State.modPwr_rt (s : State) (f : PwrSt → PwrSt) : (s.modPwr f).rt = s.rt := rfl
@[simp] theorem State.modPwr_links (s : State) (f : PwrSt → PwrSt) : (s.modPwr f).links = s.links := rfl
@[simp] theorem State.modPwr_ctl (s : State) (f : PwrSt → PwrSt) : (s.modPwr f).ctl = s.ctl := rfl
@[simp] theorem State.modPwr_sec (s : State) (f : PwrSt → PwrSt) : (s.modPwr f).sec = s.sec := rfl
@[simp] theorem State.modPwr_fuse (s : State) (f : PwrSt → PwrSt) : (s.modPwr f).fuse = s.fuse := rfl
theorem State.modPwr_frame (s : State) (f : PwrSt → PwrSt) : { s.modPwr f with pwr := s.pwr } = s := rfl

/-! ## modBoot -/

@[simp] theorem State.modBoot_pending (s : State) (f : BootSt → BootSt) : (s.modBoot f).pending = s.pending := rfl
@[simp] theorem State.modBoot_now (s : State) (f : BootSt → BootSt) : (s.modBoot f).now = s.now := rfl
@[simp] theorem State.modBoot_regs (s : State) (f : BootSt → BootSt) : (s.modBoot f).regs = s.regs := rfl
@[simp] theorem State.modBoot_mem (s : State) (f : BootSt → BootSt) : (s.modBoot f).mem = s.mem := rfl
@[simp] theorem State.modBoot_ecc (s : State) (f : BootSt → BootSt) : (s.modBoot f).ecc = s.ecc := rfl
@[simp] theorem State.modBoot_regions (s : State) (f : BootSt → BootSt) : (s.modBoot f).regions = s.regions := rfl
@[simp] theorem State.modBoot_stacks (s : State) (f : BootSt → BootSt) : (s.modBoot f).stks = s.stks := rfl
@[simp] theorem State.modBoot_ev (s : State) (f : BootSt → BootSt) : (s.modBoot f).ev = s.ev := rfl
@[simp] theorem State.modBoot_cores (s : State) (f : BootSt → BootSt) : (s.modBoot f).cores = s.cores := rfl
@[simp] theorem State.modBoot_step (s : State) (f : BootSt → BootSt) : (s.modBoot f).step = s.step := rfl
@[simp] theorem State.modBoot_rt (s : State) (f : BootSt → BootSt) : (s.modBoot f).rt = s.rt := rfl
@[simp] theorem State.modBoot_links (s : State) (f : BootSt → BootSt) : (s.modBoot f).links = s.links := rfl
@[simp] theorem State.modBoot_ctl (s : State) (f : BootSt → BootSt) : (s.modBoot f).ctl = s.ctl := rfl
@[simp] theorem State.modBoot_sec (s : State) (f : BootSt → BootSt) : (s.modBoot f).sec = s.sec := rfl
@[simp] theorem State.modBoot_fuse (s : State) (f : BootSt → BootSt) : (s.modBoot f).fuse = s.fuse := rfl
theorem State.modBoot_frame (s : State) (f : BootSt → BootSt) : { s.modBoot f with boot := s.boot } = s := rfl

/-! ## modClk -/

@[simp] theorem State.modClk_pending (s : State) (f : ClkSt → ClkSt) : (s.modClk f).pending = s.pending := rfl
@[simp] theorem State.modClk_now (s : State) (f : ClkSt → ClkSt) : (s.modClk f).now = s.now := rfl
@[simp] theorem State.modClk_regs (s : State) (f : ClkSt → ClkSt) : (s.modClk f).regs = s.regs := rfl
@[simp] theorem State.modClk_mem (s : State) (f : ClkSt → ClkSt) : (s.modClk f).mem = s.mem := rfl
@[simp] theorem State.modClk_ecc (s : State) (f : ClkSt → ClkSt) : (s.modClk f).ecc = s.ecc := rfl
@[simp] theorem State.modClk_regions (s : State) (f : ClkSt → ClkSt) : (s.modClk f).regions = s.regions := rfl
@[simp] theorem State.modClk_stacks (s : State) (f : ClkSt → ClkSt) : (s.modClk f).stks = s.stks := rfl
@[simp] theorem State.modClk_ev (s : State) (f : ClkSt → ClkSt) : (s.modClk f).ev = s.ev := rfl
@[simp] theorem State.modClk_cores (s : State) (f : ClkSt → ClkSt) : (s.modClk f).cores = s.cores := rfl
@[simp] theorem State.modClk_step (s : State) (f : ClkSt → ClkSt) : (s.modClk f).step = s.step := rfl
@[simp] theorem State.modClk_rt (s : State) (f : ClkSt → ClkSt) : (s.modClk f).rt = s.rt := rfl
@[simp] theorem State.modClk_links (s : State) (f : ClkSt → ClkSt) : (s.modClk f).links = s.links := rfl
@[simp] theorem State.modClk_ctl (s : State) (f : ClkSt → ClkSt) : (s.modClk f).ctl = s.ctl := rfl
@[simp] theorem State.modClk_sec (s : State) (f : ClkSt → ClkSt) : (s.modClk f).sec = s.sec := rfl
@[simp] theorem State.modClk_fuse (s : State) (f : ClkSt → ClkSt) : (s.modClk f).fuse = s.fuse := rfl
theorem State.modClk_frame (s : State) (f : ClkSt → ClkSt) : { s.modClk f with clk := s.clk } = s := rfl

/-! ## modSec -/

@[simp] theorem State.modSec_pending (s : State) (f : SecSt → SecSt) : (s.modSec f).pending = s.pending := rfl
@[simp] theorem State.modSec_now (s : State) (f : SecSt → SecSt) : (s.modSec f).now = s.now := rfl
@[simp] theorem State.modSec_regs (s : State) (f : SecSt → SecSt) : (s.modSec f).regs = s.regs := rfl
@[simp] theorem State.modSec_mem (s : State) (f : SecSt → SecSt) : (s.modSec f).mem = s.mem := rfl
@[simp] theorem State.modSec_ecc (s : State) (f : SecSt → SecSt) : (s.modSec f).ecc = s.ecc := rfl
@[simp] theorem State.modSec_regions (s : State) (f : SecSt → SecSt) : (s.modSec f).regions = s.regions := rfl
@[simp] theorem State.modSec_stacks (s : State) (f : SecSt → SecSt) : (s.modSec f).stks = s.stks := rfl
@[simp] theorem State.modSec_ev (s : State) (f : SecSt → SecSt) : (s.modSec f).ev = s.ev := rfl
@[simp] theorem State.modSec_cores (s : State) (f : SecSt → SecSt) : (s.modSec f).cores = s.cores := rfl
@[simp] theorem State.modSec_step (s : State) (f : SecSt → SecSt) : (s.modSec f).step = s.step := rfl
@[simp] theorem State.modSec_rt (s : State) (f : SecSt → SecSt) : (s.modSec f).rt = s.rt := rfl
@[simp] theorem State.modSec_links (s : State) (f : SecSt → SecSt) : (s.modSec f).links = s.links := rfl
@[simp] theorem State.modSec_ctl (s : State) (f : SecSt → SecSt) : (s.modSec f).ctl = s.ctl := rfl
@[simp] theorem State.modSec_fuse (s : State) (f : SecSt → SecSt) : (s.modSec f).fuse = s.fuse := rfl
theorem State.modSec_frame (s : State) (f : SecSt → SecSt) : { s.modSec f with sec := s.sec } = s := rfl

/-! ## modHost -/

@[simp] theorem State.modHost_pending (s : State) (f : HostSt → HostSt) : (s.modHost f).pending = s.pending := rfl
@[simp] theorem State.modHost_now (s : State) (f : HostSt → HostSt) : (s.modHost f).now = s.now := rfl
@[simp] theorem State.modHost_regs (s : State) (f : HostSt → HostSt) : (s.modHost f).regs = s.regs := rfl
@[simp] theorem State.modHost_mem (s : State) (f : HostSt → HostSt) : (s.modHost f).mem = s.mem := rfl
@[simp] theorem State.modHost_ecc (s : State) (f : HostSt → HostSt) : (s.modHost f).ecc = s.ecc := rfl
@[simp] theorem State.modHost_regions (s : State) (f : HostSt → HostSt) : (s.modHost f).regions = s.regions := rfl
@[simp] theorem State.modHost_stacks (s : State) (f : HostSt → HostSt) : (s.modHost f).stks = s.stks := rfl
@[simp] theorem State.modHost_ev (s : State) (f : HostSt → HostSt) : (s.modHost f).ev = s.ev := rfl
@[simp] theorem State.modHost_cores (s : State) (f : HostSt → HostSt) : (s.modHost f).cores = s.cores := rfl
@[simp] theorem State.modHost_step (s : State) (f : HostSt → HostSt) : (s.modHost f).step = s.step := rfl
@[simp] theorem State.modHost_rt (s : State) (f : HostSt → HostSt) : (s.modHost f).rt = s.rt := rfl
@[simp] theorem State.modHost_links (s : State) (f : HostSt → HostSt) : (s.modHost f).links = s.links := rfl
@[simp] theorem State.modHost_ctl (s : State) (f : HostSt → HostSt) : (s.modHost f).ctl = s.ctl := rfl
@[simp] theorem State.modHost_sec (s : State) (f : HostSt → HostSt) : (s.modHost f).sec = s.sec := rfl
@[simp] theorem State.modHost_fuse (s : State) (f : HostSt → HostSt) : (s.modHost f).fuse = s.fuse := rfl
theorem State.modHost_frame (s : State) (f : HostSt → HostSt) : { s.modHost f with host := s.host } = s := rfl

/-! ## modSrc -/

@[simp] theorem State.modSrc_pending (s : State) (k : Nat) (f : EvSrc → EvSrc) : (s.modSrc k f).pending = s.pending := rfl
@[simp] theorem State.modSrc_now (s : State) (k : Nat) (f : EvSrc → EvSrc) : (s.modSrc k f).now = s.now := rfl
@[simp] theorem State.modSrc_regs (s : State) (k : Nat) (f : EvSrc → EvSrc) : (s.modSrc k f).regs = s.regs := rfl
@[simp] theorem State.modSrc_mem (s : State) (k : Nat) (f : EvSrc → EvSrc) : (s.modSrc k f).mem = s.mem := rfl
@[simp] theorem State.modSrc_ecc (s : State) (k : Nat) (f : EvSrc → EvSrc) : (s.modSrc k f).ecc = s.ecc := rfl
@[simp] theorem State.modSrc_regions (s : State) (k : Nat) (f : EvSrc → EvSrc) : (s.modSrc k f).regions = s.regions := rfl
@[simp] theorem State.modSrc_stacks (s : State) (k : Nat) (f : EvSrc → EvSrc) : (s.modSrc k f).stks = s.stks := rfl
@[simp] theorem State.modSrc_cores (s : State) (k : Nat) (f : EvSrc → EvSrc) : (s.modSrc k f).cores = s.cores := rfl
@[simp] theorem State.modSrc_step (s : State) (k : Nat) (f : EvSrc → EvSrc) : (s.modSrc k f).step = s.step := rfl
@[simp] theorem State.modSrc_rt (s : State) (k : Nat) (f : EvSrc → EvSrc) : (s.modSrc k f).rt = s.rt := rfl
@[simp] theorem State.modSrc_links (s : State) (k : Nat) (f : EvSrc → EvSrc) : (s.modSrc k f).links = s.links := rfl
@[simp] theorem State.modSrc_ctl (s : State) (k : Nat) (f : EvSrc → EvSrc) : (s.modSrc k f).ctl = s.ctl := rfl
@[simp] theorem State.modSrc_sec (s : State) (k : Nat) (f : EvSrc → EvSrc) : (s.modSrc k f).sec = s.sec := rfl
@[simp] theorem State.modSrc_fuse (s : State) (k : Nat) (f : EvSrc → EvSrc) : (s.modSrc k f).fuse = s.fuse := rfl
theorem State.modSrc_frame (s : State) (k : Nat) (f : EvSrc → EvSrc) : { s.modSrc k f with ev := s.ev } = s := rfl

/-! ## tick -/

@[simp] theorem State.tick_pending (s : State) : (s.tick).pending = s.pending := rfl
@[simp] theorem State.tick_regs (s : State) : (s.tick).regs = s.regs := rfl
@[simp] theorem State.tick_mem (s : State) : (s.tick).mem = s.mem := rfl
@[simp] theorem State.tick_ecc (s : State) : (s.tick).ecc = s.ecc := rfl
@[simp] theorem State.tick_regions (s : State) : (s.tick).regions = s.regions := rfl
@[simp] theorem State.tick_stacks (s : State) : (s.tick).stks = s.stks := rfl
@[simp] theorem State.tick_ev (s : State) : (s.tick).ev = s.ev := rfl
@[simp] theorem State.tick_cores (s : State) : (s.tick).cores = s.cores := rfl
@[simp] theorem State.tick_step (s : State) : (s.tick).step = s.step := rfl
@[simp] theorem State.tick_rt (s : State) : (s.tick).rt = s.rt := rfl
@[simp] theorem State.tick_links (s : State) : (s.tick).links = s.links := rfl
@[simp] theorem State.tick_ctl (s : State) : (s.tick).ctl = s.ctl := rfl
@[simp] theorem State.tick_sec (s : State) : (s.tick).sec = s.sec := rfl
@[simp] theorem State.tick_fuse (s : State) : (s.tick).fuse = s.fuse := rfl
theorem State.tick_frame (s : State) : { s.tick with now := s.now, timeCount := s.timeCount } = s := rfl

end Sys2Proof.Machine
end

