-- ==== Sys2Proof/Laws/Ops.lean ====
section
/-! SUPPORT. What each shared operation can do, said once: reads after writes of cores, threads, registers and the other keyed
parts, the frames of events, memory errors and the fetch, the issue of an instruction, who carries out a command. -/

namespace Sys2Proof.Machine

open Sys2Proof.Safety

/-! ## Reads after writes -/

theorem State.core_setCore (s : State) (c d : Nat) (k : CoreSt) : (s.setCore c k).core d = if d = c then k else s.core d := by
  simp [State.setCore, State.core, mapGet_set]

theorem State.core_modCore (s : State) (c d : Nat) (f : CoreSt → CoreSt) :
    (s.modCore c f).core d = if d = c then f (s.core c) else s.core d := by
  simp [State.modCore, State.core_setCore]

theorem CoreSt.thread_setThread (k : CoreSt) (t j : Nat) (x : ThreadSt) :
    (k.setThread t x).thread j = if j = t then x else k.thread j := by
  simp [CoreSt.setThread, CoreSt.thread, mapGet_set]

theorem State.core_setThread (s : State) (c t d : Nat) (x : ThreadSt) :
    (s.setThread c t x).core d = if d = c then (s.core c).setThread t x else s.core d := by
  simp [State.setThread, State.core_modCore]

theorem State.thread_setThread (s : State) (c t d j : Nat) (x : ThreadSt) :
    (s.setThread c t x).thread d j = if d = c ∧ j = t then x else s.thread d j := by
  by_cases h : d = c
  · subst h; simp [State.thread, State.core_setThread, CoreSt.thread_setThread]
  · simp [State.thread, State.core_setThread, h]

theorem State.thread_modThread (s : State) (c t d j : Nat) (f : ThreadSt → ThreadSt) :
    (s.modThread c t f).thread d j = if d = c ∧ j = t then f (s.thread c t) else s.thread d j := by
  simp [State.modThread, State.thread_setThread]

theorem State.half_modHalf (s : State) (h g : Nat) (f : HalfSt → HalfSt) :
    (s.modHalf h f).half g = if g = h then f (s.half h) else s.half g := by
  simp [State.modHalf, State.half, mapMod, mapGet_set]

theorem State.stack_modStack (s : State) (j i : Nat) (f : StackSt → StackSt) :
    (s.modStack j f).stack i = if i = j then f (s.stack j) else s.stack i := by
  simp [State.modStack, State.stack, mapMod, mapGet_set]

theorem State.link_modLink (s : State) (l i : Nat) (f : LinkSt → LinkSt) :
    (s.modLink l f).link i = if i = l then f (s.link l) else s.link i := by
  simp [State.modLink, State.link, mapMod, mapGet_set]

theorem State.sess_modSess (s : State) (j i : Nat) (f : SessSt → SessSt) :
    (s.modSess j f).sess i = if i = j then f (s.sess j) else s.sess i := by
  simp only [State.modSess, State.sess, State.modCtl, mapMod, mapGet_set]

theorem State.gate_setGate (s : State) (n i : Nat) (f : FuncSt) : (s.setGate n f).gate i = if i = n then f else s.gate i := by
  simp [State.setGate, State.gate, mapGet_set]

theorem CoreSt.slot_setSlot (s : State) (c i j : Nat) (m : Option RunMove) :
    ((s.setSlot c i m).core c).slot j = if j = i then m else (s.core c).slot j := by
  simp [State.setSlot, State.core_modCore, CoreSt.slot, mapGet_set]

theorem ThreadSt.sreg_setS (x : ThreadSt) (r q : BitVec 5) (v : DWord) :
    (x.setS r v).sreg q = if q = r ∧ r ≠ 0 then v else x.sreg q := by
  unfold ThreadSt.setS ThreadSt.sreg
  by_cases h : r = 0
  · simp only [h, if_true, ne_eq, not_true_eq_false, and_false, if_false]
  · by_cases e : q = r
    · subst e; simp only [h, if_false, ne_eq, not_false_eq_true, and_true, if_true, mapGet_set_same]
    · have n : q.toNat ≠ r.toNat := fun z => e (BitVec.eq_of_toNat_eq z)
      simp only [h, e, if_false, false_and, mapGet_set_other _ _ _ n]

/-- Register s0 reads as 0 whatever is written (R104). -/
theorem ThreadSt.sreg_zero (x : ThreadSt) : x.sreg 0 = 0 := rfl

/-- A write to s0 changes nothing (R104). -/
theorem ThreadSt.setS_zero (x : ThreadSt) (v : DWord) : x.setS 0 v = x := rfl

theorem ThreadSt.vreg_setV (x : ThreadSt) (r q : Nat) (v : VReg) : (x.setV r v).vreg q = if q = r then v else x.vreg q := by
  simp [ThreadSt.setV, ThreadSt.vreg, mapGet_set]

theorem ThreadSt.wait_setWait (x : ThreadSt) (r q : Nat) (v : WaitCnt) : (x.setWait r v).wait q = if q = r then v else x.wait q := by
  simp [ThreadSt.setWait, ThreadSt.wait, mapGet_set]

theorem mapFind_ins {α : Type} (m : Map α) (k j : Nat) (v : α) : mapFind (mapIns m k v) j = if j = k then some v else mapFind m j := by
  induction m with
  | nil => simp only [mapIns, mapFind]
  | cons p r ih =>
    obtain ⟨a, x⟩ := p
    by_cases h1 : k < a
    · simp only [mapIns, h1, if_true, mapFind]
    · by_cases h2 : k = a
      · subst h2
        by_cases h3 : j = k <;> simp [mapIns, mapFind, h3]
      · by_cases h3 : j = a
        · subst h3
          have h4 : j ≠ k := fun z => h2 z.symm
          simp [mapIns, mapFind, h1, h2, h4]
        · simp [mapIns, mapFind, h1, h2, h3, ih]

theorem mapFind_del {α : Type} (m : Map α) (k j : Nat) : mapFind (mapDel m k) j = if j = k then none else mapFind m j := by
  induction m with
  | nil => simp [mapDel, mapFind]
  | cons p r ih =>
    obtain ⟨a, x⟩ := p
    by_cases h2 : k = a
    · subst h2
      by_cases h3 : j = k
      · subst h3; simpa [mapDel] using ih
      · simpa [mapDel, mapFind, h3] using ih
    · by_cases h3 : j = a
      · subst h3
        have h4 : j ≠ k := fun z => h2 z.symm
        simp [mapDel, mapFind, h2, h4]
      · simp [mapDel, mapFind, h2, h3, ih]

theorem State.raw_setRaw (s : State) (a b : Nat) (v : Word) : (s.setRaw a v).raw b = if b = a then v else s.raw b := by
  by_cases h : v = resetOf a <;> by_cases e : b = a <;> simp [State.setRaw, State.raw, h, e, mapFind_del, mapFind_ins]

theorem State.raw_bump (s : State) (a b : Nat) :
    (s.bump a).raw b = if b = a then BitVec.ofNat 32 (satAdd 32 (s.raw a).toNat 1) else s.raw b := by
  simp [State.bump, State.bumpBy, State.raw_setRaw]

/-! ## Events -/

theorem State.enqueue_frame (s : State) (r : Rec) : ∃ ev regs, s.enqueue r = { s with ev := ev, regs := regs } := by
  unfold State.enqueue
  extract_lets k q free
  split
  · exact ⟨_, _, rfl⟩
  · exact ⟨_, _, rfl⟩

theorem State.limitPost_frame (s : State) (r : Rec) : ∃ ev regs, s.limitPost r = { s with ev := ev, regs := regs } := by
  unfold State.limitPost
  extract_lets k q i lim t used w q1
  split
  · obtain ⟨ev, regs, h⟩ := State.enqueue_frame { s with ev := { s.ev with src := mapSet {} s.ev.src k q1 } } r
    exact ⟨ev, regs, h⟩
  · exact ⟨_, _, rfl⟩

theorem State.endLate_frame (s : State) (k code : Nat) : ∃ ev regs, s.endLate k code = { s with ev := ev, regs := regs } := by
  unfold State.endLate
  dsimp only
  split
  · exact ⟨_, _, rfl⟩
  · rename_i w l _
    split
    · exact ⟨_, _, rfl⟩
    · obtain ⟨ev, regs, h⟩ := State.limitPost_frame
        { s with ev := { s.ev with src := mapSet {} s.ev.src k { (mapGet {} s.ev.src k) with windows := l } } }
        { w.latest with rep := min 65535 w.count }
      exact ⟨ev, regs, h⟩

theorem State.postRec_frame (s : State) (r : Rec) : ∃ ev regs, s.postRec r = { s with ev := ev, regs := regs } := by
  unfold State.postRec
  dsimp only
  split
  · exact State.enqueue_frame s r
  · obtain ⟨ev, regs, h⟩ := s.endLate_frame (srcKey r.block r.inst) r.code
    rw [h]
    split
    · exact ⟨_, _, rfl⟩
    · obtain ⟨ev2, regs2, h2⟩ := State.limitPost_frame { s with ev := ev, regs := regs } r
      exact ⟨ev2, regs2, h2⟩

/-- Posting an event changes nothing but events and their counters. -/
theorem State.post_frame (s : State) (h b i : Nat) (cls : EvClass) (code : Nat) (pl : List Byte) (m : Option (List Byte)) :
    ∃ ev regs, s.post h b i cls code pl m = { s with ev := ev, regs := regs } := State.postRec_frame s _

theorem State.post_eq (s : State) (h b i : Nat) (cls : EvClass) (code : Nat) (pl : List Byte) (m : Option (List Byte)) :
    { s.post h b i cls code pl m with ev := s.ev, regs := s.regs } = s := by
  obtain ⟨ev, regs, e⟩ := State.post_frame s h b i cls code pl m
  rw [e]

/-! ## Step-fault bit and exceptions -/

/-- Setting a step-fault bit changes nothing but that core's bit and its source. -/
theorem State.stepFault_frame (s : State) (c a b d : Nat) : ∃ k, s.stepFault c a b d = s.setCore c k
    ∧ k.stepFault = true ∧ ∃ x y z w, k = { s.core c with stepFault := x, sfSource := y, sfThread := z, sfCode := w } := by
  by_cases h : (s.core c).stepFault = true
  · exact ⟨s.core c, by simp only [State.stepFault, State.modCore, h, if_true], h, _, _, _, _, rfl⟩
  · exact ⟨{ s.core c with stepFault := true, sfSource := a, sfThread := b, sfCode := d },
      by simp only [State.stepFault, State.modCore, h]; rfl, rfl, _, _, _, _, rfl⟩

theorem State.thread_stepFault (s : State) (c a b d e j : Nat) : (s.stepFault c a b d).thread e j = s.thread e j := by
  obtain ⟨k, h, _, x, y, z, w, hk⟩ := s.stepFault_frame c a b d
  rw [h, hk]
  by_cases he : e = c
  · subst he; simp [State.thread, State.core_setCore, CoreSt.thread]
  · simp [State.thread, State.core_setCore, he]

/-! ## Memory errors (R182, R185) -/

theorem State.corrected_frame (s : State) (k : Nat) :
    ∃ ev regs ecc seen, s.corrected k = { s with ev := ev, regs := regs, ecc := ecc, ceSeen := seen } :=
  Exists.elim (State.post_frame _ _ _ _ _ _ _ _) fun ev h => Exists.elim h fun regs e => ⟨ev, regs, _, _, e⟩

/-- Three writes of registers change nothing but registers. -/
theorem State.setRaws_frame (s : State) (a b c d e : Nat) (v w : Word) :
    ∃ regs, ((s.bumpBy a d e).setRaw b v).setRaw c w = { s with regs := regs } := ⟨_, rfl⟩

theorem State.uncorrectable_frame (s : State) (k kind req : Nat) :
    ∃ ev regs, s.uncorrectable k kind req = { s with ev := ev, regs := regs, step := { s.step with memUe := true } } := by
  have key : ∀ r h b i cls code pl, ∃ ev regs, ({ s with regs := r, step := { s.step with memUe := true } } : State).post h b i cls code pl
      = { s with ev := ev, regs := regs, step := { s.step with memUe := true } } := fun r h b i cls code pl =>
    State.post_frame ({ s with regs := r, step := { s.step with memUe := true } } : State) h b i cls code pl none
  unfold State.uncorrectable
  cases stackOfKey k with
  | none =>
    obtain ⟨r, e⟩ := s.setRaws_frame 0xCC004 0xCC008 0xCC00C 16 1 (BitVec.ofNat 32 (s.errAddr k))
      (BitVec.ofNat 32 (kind * 2 ^ 28 + s.errAddr k / 2 ^ 32 % 512))
    simp only [e]
    exact key _ _ _ _ _ _ _
  | some j =>
    obtain ⟨r, e⟩ := s.setRaws_frame (aStk j 0x008) (aStk j 0x00C) (aStk j 0x010) 16 1 (BitVec.ofNat 32 (s.errAddr k))
      (BitVec.ofNat 32 (kind * 2 ^ 28 + s.errAddr k / 2 ^ 32 % 512))
    simp only [e]
    exact key _ _ _ _ _ _ _

/-- From `s` to `u` nothing has changed but events, their counters, the list of memory errors, the windows that count them, and the
latch MEM_UE of the step. -/
def Scanned (s u : State) : Prop :=
  ∃ ev regs ecc seen ue, u = { s with ev := ev, regs := regs, ecc := ecc, ceSeen := seen, step := { s.step with memUe := ue } }

theorem Scanned.rfl' (s : State) : Scanned s s := ⟨_, _, _, _, _, rfl⟩

theorem Scanned.corrected {s u : State} (h : Scanned s u) (k : Nat) : Scanned s (u.corrected k) := by
  obtain ⟨ev, regs, ecc, seen, ue, rfl⟩ := h
  obtain ⟨ev', regs', ecc', seen', e⟩ := State.corrected_frame _ k
  rw [e]
  exact ⟨_, _, _, _, _, rfl⟩

theorem Scanned.uncorrectable {s u : State} (h : Scanned s u) (k kind req : Nat) : Scanned s (u.uncorrectable k kind req) := by
  obtain ⟨ev, regs, ecc, seen, ue, rfl⟩ := h
  obtain ⟨ev', regs', e⟩ := State.uncorrectable_frame _ k kind req
  rw [e]
  exact ⟨_, _, _, _, _, rfl⟩

/-- The correction and the report of memory errors. -/
theorem State.scanUnits_frame (s : State) (us : List Nat) (kind req : Nat) : Scanned s (s.scanUnits us kind req).1 := by
  have key : ∀ (l : List EccLoc) (p : State × Bool), Scanned s p.1 → Scanned s (l.foldl (fun (p : State × Bool) e =>
      match e.kind with
      | .correctable => (p.1.corrected e.key, p.2)
      | .uncorrectable => (p.1.uncorrectable e.key kind req, true)) p).1 := by
    intro l
    induction l with
    | nil => intro p hp; exact hp
    | cons e l ih =>
      intro p hp
      rw [List.foldl_cons]
      refine ih _ ?_
      cases e.kind
      · exact hp.corrected _
      · exact hp.uncorrectable _ _ _
  exact key _ _ (Scanned.rfl' s)

/-- Without memory errors nothing is corrected or reported. -/
theorem State.scanUnits_clean (s : State) (us : List Nat) (kind req : Nat) (h : s.ecc = []) : s.scanUnits us kind req = (s, false) := by
  simp [State.scanUnits, h]

theorem State.read_clean (s : State) (a n kind req : Nat) (h : s.ecc = []) : s.read a n kind req = (s, s.bytes a n, false) := by
  simp [State.read, State.scanUnits_clean _ _ _ _ h]

theorem State.write_clean (s : State) (a : Nat) (l : List Byte) (req : Nat) (h : s.ecc = []) : s.write a l req = (s.store a l, false) := by
  simp [State.write, h]

theorem State.fetch_clean (s : State) (c t : Nat) (h : s.ecc = []) : s.fetch c t = s := by
  simp [State.fetch, State.scanUnits_clean _ _ _ _ h]

/-! ## The issue of an instruction (R105, R106, R110, R136) -/

/-- A ready, legal instruction whose effect goes on does so at its PC. -/
theorem State.issue_done (s s2 : State) (c t : Nat) (rs : List (BitVec 5)) (pc : DWord) (body : State → ThreadSt → Issue)
    (h : Ready s c t rs) (e : body (s.fetch c t) ((s.fetch c t).thread c t) = .done s2 pc) :
    s.issue c t rs true body = .next (s2.modThread c t fun y => { y with pc := pc }) := by
  simp [State.issue, h.1, h.2, e]

/-- A ready, legal instruction whose effect raises a cause takes the exception. -/
theorem State.issue_raise (s : State) (c t : Nat) (rs : List (BitVec 5)) (k : Cause) (a : DWord) (body : State → ThreadSt → Issue)
    (h : Ready s c t rs) (e : body (s.fetch c t) ((s.fetch c t).thread c t) = .raise k a) :
    s.issue c t rs true body = .next ((s.fetch c t).exception c t k a) := by
  simp [State.issue, h.1, h.2, e]

/-- A ready instruction that breaks a rule of R110 raises ILLEGAL. -/
theorem State.issue_illegal (s : State) (c t : Nat) (rs : List (BitVec 5)) (body : State → ThreadSt → Issue) (h : Ready s c t rs) :
    s.issue c t rs false body = .next ((s.fetch c t).exception c t .illegal 0) := by
  simp [State.issue, h.1, h.2]

/-- An instruction that is not ready changes nothing. -/
theorem State.issue_waits (s : State) (c t : Nat) (rs : List (BitVec 5)) (b : Bool) (body : State → ThreadSt → Issue)
    (h : ¬Ready s c t rs) : s.issue c t rs b body = .next s := by
  have : (s.canIssue c t && (s.thread c t).free rs) = false := by
    cases h1 : s.canIssue c t <;> cases h2 : (s.thread c t).free rs <;> simp_all [Ready]
  simp [State.issue, this]

/-- Every instruction completes, with an effect or an exception or by waiting. -/
theorem State.issue_next (s : State) (c t : Nat) (rs : List (BitVec 5)) (b : Bool) (body : State → ThreadSt → Issue) :
    ∃ u, s.issue c t rs b body = .next u := by
  unfold State.issue
  extract_lets x s1
  split
  · split
    · split <;> exact ⟨_, rfl⟩
    · exact ⟨_, rfl⟩
  · exact ⟨_, rfl⟩

/-- A thread that retires an instruction changes nothing else. -/
theorem onlyThread_retire (s : State) (c t : Nat) (x : ThreadSt) (pc : DWord) :
    OnlyThread s ((s.setThread c t x).modThread c t fun y => { y with pc := pc }) c t { x with pc := pc } := by
  refine ⟨?_, ?_, ?_, ?_, rfl⟩
  · simp [State.thread_modThread, State.thread_setThread]
  · intro j hj
    simp [State.thread_modThread, State.thread_setThread, hj]
  · simp [State.modThread, State.core_setThread, CoreSt.setThread]
  · intro d hd
    simp [State.modThread, State.core_setThread, hd]

/-! ## Commands of sessions (R360, R361) -/

theorem State.critical_front (s : State) (hd : Head) (op : Nat) (args : List Byte) (c : Cmd) (r : List Cmd) (f : Cmd → State → State)
    (h : AtFront s hd op args c r) :
    s.critical hd op args f = if (left s r).ownerCheck c = 0 then f c (left s r)
      else (left s r).countRefused.respond c ((left s r).ownerCheck c) := by
  obtain ⟨h1, h2, h3, h4, h5, h6, h7, h8⟩ := h
  have e : (s.leadRuns && s.ctlFree op && c.is hd op fun l => l == args) = true := by
    simp [h1, h2, Cmd.is, h4, h5, h6, h7, h8]
  simp only [State.critical, State.criticalIf, h3, e, if_true]
  rfl

/-- A command that is its owner's is carried out. -/
theorem State.critical_executes (s : State) (hd : Head) (op : Nat) (args : List Byte) (c : Cmd) (r : List Cmd) (f : Cmd → State → State)
    (h : Executes s hd op args c r) : s.critical hd op args f = f c (left s r) := by
  obtain ⟨h0, h1, h2, h3, h6, h4, h5⟩ := h
  have e : (left s r).ownerCheck c = 0 := by
    unfold State.ownerCheck
    have a1 : (left s r).isHeld = false := h1
    have a2 : (left s r).ctl.own.owned = true := h2
    have a3 : (left s r).ctl.own.sess = some c.slot := h3
    have a4 : ((left s r).sess c.slot).id = c.sid := h4
    have a5 : (left s r).ctl.own.epoch = c.epoch := h5
    have a6 : (left s r).ctl.own.sid = c.sid := h6
    simp [a1, a2, a3, a4, a5, a6]
  rw [State.critical_front s hd op args c r f h0, if_pos e]

/-- A write of the owner is carried out and answered. -/
theorem State.writeAs_owner (s : State) (i : SlotId) (a : Nat) (f : State → Effect) (h : Owns s i) :
    s.writeAs (.sess i) a f = (f s).1.emit (.regStatus (BitVec.ofNat 32 a) (f s).2) := by
  obtain ⟨h1, h2, h3, h4, h5, h6⟩ := h
  simp [State.writeAs, State.isOwner, h1, h2, h3, h4, h5, h6, w32]

/-! ## Steps -/

theorem step_cons (s : State) (c : Instr) (r : List Instr) (h : s.pending = c :: r) : step s = exec c { s with pending := r } := by
  simp only [step, h]

theorem step_nil (s : State) (h : s.pending = []) : step s = .next s.idle := by
  simp only [step, h]

end Sys2Proof.Machine
end

