-- ==== Sys2Proof/Laws/Mem.lean ====
section
/-! SUPPORT. Memory: every operation keeps the canonical form, and a byte below the DRAM reads back what was written. -/

namespace Sys2Proof.Machine

/-! ## The canonical form -/

theorem writeBytes_wf (rs : List Region) : ∀ (l : List Byte) (m : Map Byte) (a : Nat), mapWf 0 m = true →
    mapWf 0 (writeBytes rs m a l) = true
  | [], _, _, h => h
  | b :: r, m, a, h => by
    unfold writeBytes
    cases keyOf rs a with
    | none => exact writeBytes_wf rs r m (a + 1) h
    | some k => exact writeBytes_wf rs r _ (a + 1) (mapWf_set 0 m k b h)

theorem writeKeys_wf : ∀ (l : List Byte) (m : Map Byte) (k : Nat), mapWf 0 m = true → mapWf 0 (writeKeys m k l) = true
  | [], _, _, h => h
  | b :: r, m, k, h => writeKeys_wf r _ (k + 1) (mapWf_set 0 m k b h)

theorem State.setMeta_wf (s : State) (r : Region) (a w : Nat) (b : Bool) (h : mapWf 0 s.mem = true) :
    mapWf 0 (s.setMeta r a w b).mem = true := writeKeys_wf _ _ _ h

theorem State.refreshBeat_wf (s : State) (a : Nat) (h : mapWf 0 s.mem = true) : mapWf 0 (s.refreshBeat a).mem = true := by
  unfold State.refreshBeat
  cases regionAt s.regions a with
  | none => exact h
  | some r =>
    by_cases c : r.carrier = true
    · simp only [c, if_true]; exact State.setMeta_wf _ _ _ _ _ h
    · simp only [c]; exact h

theorem refreshBeats_wf (l : List Nat) : ∀ s : State, mapWf 0 s.mem = true → mapWf 0 (l.foldl State.refreshBeat s).mem = true := by
  induction l with
  | nil => intro s h; exact h
  | cons a l ih => intro s h; exact ih _ (State.refreshBeat_wf s a h)

theorem State.store_wf (s : State) (a : Nat) (l : List Byte) (h : mapWf 0 s.mem = true) : mapWf 0 (s.store a l).mem = true := by
  unfold State.store
  by_cases c : a < dramBase
  · simp only [c, if_true]; exact writeBytes_wf _ _ _ _ h
  · simp only [c, if_false]; exact refreshBeats_wf _ _ (writeBytes_wf _ _ _ _ h)

theorem Scanned.mem {s u : State} (h : Scanned s u) : u.mem = s.mem := by
  obtain ⟨_, _, _, _, _, rfl⟩ := h; rfl

theorem Scanned.regions {s u : State} (h : Scanned s u) : u.regions = s.regions := by
  obtain ⟨_, _, _, _, _, rfl⟩ := h; rfl

theorem Scanned.cores {s u : State} (h : Scanned s u) : u.cores = s.cores := by
  obtain ⟨_, _, _, _, _, rfl⟩ := h; rfl

theorem Scanned.byte {s u : State} (h : Scanned s u) (a : Nat) : u.byte a = s.byte a := by
  unfold State.byte; rw [h.mem, h.regions]

theorem scan_wf (s : State) (us : List Nat) (kind req : Nat) (h : mapWf 0 s.mem = true) : mapWf 0 (s.scanUnits us kind req).1.mem = true := by
  rw [(State.scanUnits_frame _ _ _ _).mem]; exact h

theorem State.beatAfter_wf (s : State) (us : List Nat) (req a : Nat) (h : mapWf 0 s.mem = true) :
    mapWf 0 (s.beatAfter us req a).1.mem = true := by
  unfold State.beatAfter
  cases regionAt s.regions a with
  | none => exact h
  | some r =>
    dsimp only
    split
    · dsimp only
      split
      · exact scan_wf _ _ _ _ (scan_wf _ _ _ _ h)
      · exact State.refreshBeat_wf _ _ (scan_wf _ _ _ _ (scan_wf _ _ _ _ h))
    · exact h

theorem beatsAfter_wf (us : List Nat) (req : Nat) (l : List Nat) : ∀ q : State × Bool, mapWf 0 q.1.mem = true →
    mapWf 0 (l.foldl (fun (q : State × Bool) x => let z := q.1.beatAfter us req x; (z.1, q.2 || z.2)) q).1.mem = true := by
  induction l with
  | nil => intro q h; exact h
  | cons a l ih => intro q h; exact ih _ (State.beatAfter_wf _ _ _ _ h)

theorem State.write_wf (s : State) (a : Nat) (l : List Byte) (req : Nat) (h : mapWf 0 s.mem = true) :
    mapWf 0 (s.write a l req).1.mem = true := by
  unfold State.write
  extract_lets n us hit part bad
  split
  · exact State.store_wf s a l h
  · have key : ∀ (is : List Nat) (q : State), mapWf 0 q.mem = true → mapWf (0 : Byte) (is.foldl (fun (q : State) i =>
        match keyOf s.regions (a + i) with
        | none => q
        | some k => if bad.contains (unitKey k) then q else { q with mem := mapSet 0 q.mem k (nth 0 l i) }) q).mem = true := by
      intro is
      induction is with
      | nil => intro q hq; exact hq
      | cons i is ih =>
        intro q hq
        rw [List.foldl_cons]
        refine ih _ ?_
        cases keyOf s.regions (a + i) with
        | none => exact hq
        | some k =>
          dsimp only
          split
          · exact hq
          · exact mapWf_set 0 q.mem k _ hq
    have h0 : mapWf 0 (({ s with ecc := s.ecc.filter fun e => !(hit.contains e && s.covers a n e.key) } : State).scanUnits
        (part.map (·.key)) 1 req).1.mem = true := by
      rw [(State.scanUnits_frame _ _ _ _).mem]; exact h
    dsimp only
    split
    · exact key _ _ h0
    · exact beatsAfter_wf _ _ _ _ (key _ _ h0)

theorem State.zeroStack_wf (s : State) (j : Nat) (h : mapWf 0 s.mem = true) : mapWf 0 (s.zeroStack j).mem = true :=
  mapWf_filter _ _ _ h

theorem State.upset_wf (s : State) (k : Nat) (e : EccKind) (h : mapWf 0 s.mem = true) : mapWf 0 (s.upset k e).mem = true := by
  cases e with
  | correctable =>
    unfold State.upset
    dsimp only
    split <;> exact h
  | uncorrectable => exact writeKeys_wf _ _ _ h

theorem State.read_wf (s : State) (a n kind req : Nat) (h : mapWf 0 s.mem = true) : mapWf 0 (s.read a n kind req).1.mem = true := by
  have e : (s.read a n kind req).1.mem = s.mem := (State.scanUnits_frame _ _ _ _).mem
  rw [e]; exact h

/-! ## Reading what was written -/

theorem mapGet_writeKeys : ∀ (l : List Byte) (m : Map Byte) (k j : Nat),
    mapGet 0 (writeKeys m k l) j = if k ≤ j ∧ j < k + l.length then nth 0 l (j - k) else mapGet 0 m j
  | [], m, k, j => by
    have : ¬(k ≤ j ∧ j < k + ([] : List Byte).length) := by simp
    rw [if_neg this]; rfl
  | b :: r, m, k, j => by
    rw [writeKeys, mapGet_writeKeys r _ (k + 1) j]
    by_cases h1 : k + 1 ≤ j ∧ j < k + 1 + r.length
    · have h2 : k ≤ j ∧ j < k + (b :: r).length := by simp only [List.length_cons]; omega
      have h3 : j - k = (j - (k + 1)) + 1 := by omega
      rw [if_pos h1, if_pos h2, h3]; rfl
    · by_cases h4 : j = k
      · subst h4
        have h2 : j ≤ j ∧ j < j + (b :: r).length := by simp only [List.length_cons]; omega
        rw [if_neg h1, if_pos h2, mapGet_set_same, Nat.sub_self]; rfl
      · have h2 : ¬(k ≤ j ∧ j < k + (b :: r).length) := by simp only [List.length_cons]; omega
        rw [if_neg h1, if_neg h2, mapGet_set_other _ _ _ h4]

/-- A key that a write of bytes does not touch keeps its byte. -/
theorem mapGet_writeBytes_other (rs : List Region) : ∀ (l : List Byte) (m : Map Byte) (a j : Nat),
    (∀ i, i < l.length → keyOf rs (a + i) ≠ some j) → mapGet 0 (writeBytes rs m a l) j = mapGet 0 m j
  | [], _, _, _, _ => rfl
  | b :: r, m, a, j, h => by
    have h0 := h 0 (by simp)
    have hr : ∀ i, i < r.length → keyOf rs (a + 1 + i) ≠ some j := by
      intro i hi
      have := h (i + 1) (by simp only [List.length_cons]; omega)
      rwa [show a + 1 + i = a + (i + 1) by omega]
    unfold writeBytes
    cases hk : keyOf rs a with
    | none => exact mapGet_writeBytes_other rs r m (a + 1) j hr
    | some k =>
      have hn : j ≠ k := by
        intro e; apply h0; rw [Nat.add_zero, hk, e]
      rw [mapGet_writeBytes_other rs r _ (a + 1) j hr, mapGet_set_other _ _ _ hn]

/-- Below the DRAM the key of a byte is its address (R165). -/
theorem keyOf_low (rs : List Region) (a k : Nat) (h : a < dramBase) (e : keyOf rs a = some k) : k = a := by
  unfold keyOf at e
  split at e
  · cases e; rfl
  · split at e
    · cases e; rfl
    · have : regionAt rs a = none := by simp [regionAt, h]
      rw [this] at e
      cases e

/-- The key of a byte in the DRAM lies above every key below it. -/
theorem keyOf_high (rs : List Region) (a k : Nat) (h : dramBase ≤ a) (e : keyOf rs a = some k) : 2 ^ 44 ≤ k := by
  unfold keyOf dramBase commonsBase at *
  split at e
  · omega
  · split at e
    · omega
    · cases hr : regionAt rs a with
      | none => rw [hr] at e; cases e
      | some r =>
        rw [hr] at e
        have := Option.some.inj e
        rw [← this]
        unfold stackKey
        omega

/-- A store below the DRAM leaves every other byte of the address map as it was. -/
theorem State.byte_store_other (s : State) (a y : Nat) (l : List Byte) (h : a + l.length ≤ dramBase) (hy : y < a ∨ a + l.length ≤ y) :
    (s.store a l).byte y = s.byte y := by
  cases hl : l with
  | nil =>
    subst hl
    have : s.store a [] = s := by
      unfold State.store
      by_cases c : a < dramBase
      · simp only [c, if_true]; rfl
      · simp only [c, if_false]; rfl
    rw [this]
  | cons b r =>
    have hlen : 0 < l.length := by rw [hl]; simp
    have c : a < dramBase := by omega
    rw [← hl]
    have e : s.store a l = { s with mem := writeBytes s.regions s.mem a l } := by
      unfold State.store; simp only [c, if_true]
    rw [e]
    unfold State.byte
    dsimp only
    cases hk : keyOf s.regions y with
    | none => rfl
    | some k =>
      refine mapGet_writeBytes_other _ _ _ _ _ fun i hi he => ?_
      have h1 := keyOf_low _ _ _ (by omega) he
      by_cases hd : y < dramBase
      · have h2 := keyOf_low _ _ _ hd hk
        omega
      · have h2 := keyOf_high _ _ _ (by omega) hk
        unfold dramBase at *
        omega

end Sys2Proof.Machine
end

