-- ==== Sys2Proof/Laws/Keeps.lean ====
section
/-! SUPPORT. What every command keeps: the waiting commands, the count of TIME cycles, the fuses, the canonical form of memory, and
firmware versions that never fall. The relation is closed under the shared operations. -/

namespace Sys2Proof.Machine

/-- From `s` to `u` the queue, the count of TIME cycles and the fuses are kept, firmware versions do not fall, and memory stays
canonical where it is. -/
structure Keeps (s u : State) : Prop where
  pending : u.pending = s.pending
  now : u.now = s.now
  fuse : u.fuse = s.fuse
  svnM : s.sec.fuseM ≤ u.sec.fuseM
  svnC : s.sec.fuseC ≤ u.sec.fuseC
  wf : mapWf (0 : Byte) s.mem = true → mapWf (0 : Byte) u.mem = true

theorem Keeps.refl (s : State) : Keeps s s := ⟨rfl, rfl, rfl, Nat.le_refl _, Nat.le_refl _, id⟩

theorem Keeps.trans {s t u : State} (h : Keeps s t) (k : Keeps t u) : Keeps s u :=
  ⟨k.pending.trans h.pending, k.now.trans h.now, k.fuse.trans h.fuse, Nat.le_trans h.svnM k.svnM, Nat.le_trans h.svnC k.svnC, k.wf ∘ h.wf⟩

/-- An update of none of these parts keeps them. -/
theorem Keeps.of_eq {s u : State} (h1 : u.pending = s.pending) (h2 : u.now = s.now) (h3 : u.fuse = s.fuse) (h4 : u.sec = s.sec)
    (h5 : u.mem = s.mem) : Keeps s u :=
  ⟨h1, h2, h3, h4 ▸ Nat.le_refl _, h4 ▸ Nat.le_refl _, fun h => h5 ▸ h⟩

/-- An update of memory alone that keeps its form. -/
theorem Keeps.of_mem {s u : State} (m : Map Byte) (e : u = { s with mem := m }) (h : mapWf (0 : Byte) s.mem = true → mapWf (0 : Byte) m = true) :
    Keeps s u := by
  subst e; exact ⟨rfl, rfl, rfl, Nat.le_refl _, Nat.le_refl _, h⟩

theorem Keeps.foldl {α : Type} (f : State → α → State) (h : ∀ s a, Keeps s (f s a)) : ∀ (l : List α) (s : State), Keeps s (l.foldl f s)
  | [], s => Keeps.refl s
  | a :: l, s => (h s a).trans (Keeps.foldl f h l _)

theorem keeps_post (s : State) (h b i : Nat) (cls : EvClass) (code : Nat) (pl : List Byte) (m : Option (List Byte)) :
    Keeps s (s.post h b i cls code pl m) := by
  obtain ⟨ev, regs, e⟩ := State.post_frame s h b i cls code pl m
  rw [e]; exact Keeps.of_eq rfl rfl rfl rfl rfl

theorem keeps_setRaw (s : State) (a : Nat) (v : Word) : Keeps s (s.setRaw a v) := Keeps.of_eq rfl rfl rfl rfl rfl
theorem keeps_bump (s : State) (a : Nat) : Keeps s (s.bump a) := Keeps.of_eq rfl rfl rfl rfl rfl
theorem keeps_bumpFree (s : State) (n : Nat) : Keeps s (s.bumpFree n) := Keeps.of_eq rfl rfl rfl rfl rfl
theorem keeps_modCore (s : State) (c : Nat) (f : CoreSt → CoreSt) : Keeps s (s.modCore c f) := Keeps.of_eq rfl rfl rfl rfl rfl
theorem keeps_modThread (s : State) (c t : Nat) (f : ThreadSt → ThreadSt) : Keeps s (s.modThread c t f) := Keeps.of_eq rfl rfl rfl rfl rfl
theorem keeps_modLink (s : State) (l : Nat) (f : LinkSt → LinkSt) : Keeps s (s.modLink l f) := Keeps.of_eq rfl rfl rfl rfl rfl
theorem keeps_modStack (s : State) (j : Nat) (f : StackSt → StackSt) : Keeps s (s.modStack j f) := Keeps.of_eq rfl rfl rfl rfl rfl
theorem keeps_modCtl (s : State) (f : CtlSt → CtlSt) : Keeps s (s.modCtl f) := Keeps.of_eq rfl rfl rfl rfl rfl
theorem keeps_stepFault (s : State) (c a b d : Nat) : Keeps s (s.stepFault c a b d) := keeps_modCore _ _ _

theorem Scanned.keeps {s u : State} (h : Scanned s u) : Keeps s u := by
  obtain ⟨_, _, _, _, _, rfl⟩ := h; exact Keeps.of_eq rfl rfl rfl rfl rfl

theorem keeps_scan (s : State) (us : List Nat) (kind req : Nat) : Keeps s (s.scanUnits us kind req).1 := (State.scanUnits_frame _ _ _ _).keeps

theorem keeps_read (s : State) (a n kind req : Nat) : Keeps s (s.read a n kind req).1 := keeps_scan _ _ _ _

theorem keeps_refreshBeat (s : State) (a : Nat) : Keeps s (s.refreshBeat a) := by
  unfold State.refreshBeat
  cases regionAt s.regions a with
  | none => exact Keeps.refl s
  | some r =>
    dsimp only
    split
    · exact Keeps.of_mem _ rfl fun h => State.setMeta_wf _ _ _ _ _ h
    · exact Keeps.refl s

theorem keeps_store (s : State) (a : Nat) (l : List Byte) : Keeps s (s.store a l) := by
  unfold State.store
  have h : Keeps s { s with mem := writeBytes s.regions s.mem a l } := Keeps.of_mem _ rfl (writeBytes_wf _ _ _ _)
  dsimp only
  split
  · exact h
  · exact h.trans (Keeps.foldl _ keeps_refreshBeat _ _)

theorem keeps_beatAfter (s : State) (us : List Nat) (req a : Nat) : Keeps s (s.beatAfter us req a).1 := by
  unfold State.beatAfter
  cases regionAt s.regions a with
  | none => exact Keeps.refl s
  | some r =>
    dsimp only
    split
    · dsimp only
      split
      · exact (keeps_scan _ _ _ _).trans (keeps_scan _ _ _ _)
      · exact ((keeps_scan _ _ _ _).trans (keeps_scan _ _ _ _)).trans (keeps_refreshBeat _ _)
    · exact Keeps.refl s

theorem keeps_beatsAfter (us : List Nat) (req : Nat) (l : List Nat) : ∀ q : State × Bool,
    Keeps q.1 (l.foldl (fun (q : State × Bool) x => let z := q.1.beatAfter us req x; (z.1, q.2 || z.2)) q).1 := by
  induction l with
  | nil => intro q; exact Keeps.refl q.1
  | cons a l ih => intro q; exact (keeps_beatAfter q.1 us req a).trans (ih ((q.1.beatAfter us req a).1, q.2 || (q.1.beatAfter us req a).2))

theorem keeps_write (s : State) (a : Nat) (l : List Byte) (req : Nat) : Keeps s (s.write a l req).1 := by
  unfold State.write
  extract_lets n us hit part bad
  split
  · exact keeps_store s a l
  · dsimp only
    have h0 : Keeps s (({ s with ecc := s.ecc.filter fun e => !(hit.contains e && s.covers a n e.key) } : State).scanUnits
        (part.map (·.key)) 1 req).1 :=
      (Keeps.of_eq rfl rfl rfl rfl rfl :
        Keeps s { s with ecc := s.ecc.filter fun e => !(hit.contains e && s.covers a n e.key) }).trans (keeps_scan _ _ _ _)
    have h1 := fun q => Keeps.foldl (fun (q : State) i =>
        match keyOf s.regions (a + i) with
        | none => q
        | some k => if bad.contains (unitKey k) then q else { q with mem := mapSet 0 q.mem k (nth 0 l i) })
      (fun q i => by
        cases keyOf s.regions (a + i) with
        | none => exact Keeps.refl q
        | some k =>
          dsimp only
          split
          · exact Keeps.refl q
          · exact Keeps.of_mem _ rfl (mapWf_set 0 q.mem k _)) (upto n) q
    split
    · exact h0.trans (h1 _)
    · exact (h0.trans (h1 _)).trans (keeps_beatsAfter _ _ _ (_, _))

theorem keeps_fetch (s : State) (c t : Nat) : Keeps s (s.fetch c t) := by
  unfold State.fetch
  extract_lets p
  split
  · exact ((keeps_scan _ _ _ _).trans (keeps_modThread _ _ _ _)).trans (keeps_stepFault _ _ _ _ _)
  · exact keeps_scan _ _ _ _

theorem keeps_loadBytes (s : State) (c t a n : Nat) : Keeps s (s.loadBytes c t a n).1 := by
  unfold State.loadBytes
  extract_lets p
  split
  · exact ((keeps_read _ _ _ _ _).trans (keeps_modThread _ _ _ _)).trans (keeps_stepFault _ _ _ _ _)
  · exact keeps_read _ _ _ _ _

theorem keeps_storeBytes (s : State) (c t a : Nat) (l : List Byte) : Keeps s (s.storeBytes c t a l) := by
  unfold State.storeBytes
  extract_lets p
  split
  · exact (keeps_write _ _ _ _).trans (keeps_stepFault _ _ _ _ _)
  · exact keeps_write _ _ _ _

theorem keeps_exception (s : State) (c t : Nat) (e : Cause) (a : DWord) : Keeps s (s.exception c t e a) :=
  ((Keeps.of_eq rfl rfl rfl rfl rfl : Keeps s (s.setThread c t _)).trans (keeps_stepFault _ _ _ _ _)).trans (keeps_post _ _ _ _ _ _ _ _)

/-- An instruction keeps what its effect keeps. -/
theorem keeps_issue (s u : State) (c t : Nat) (rs : List (BitVec 5)) (b : Bool) (body : State → ThreadSt → Issue)
    (hb : ∀ q x s2 pc, body q x = .done s2 pc → Keeps q s2) (h : s.issue c t rs b body = .next u) : Keeps s u := by
  unfold State.issue at h
  extract_lets x s1 at h
  have hf : Keeps s s1 := keeps_fetch s c t
  split at h
  · split at h
    · split at h
      · cases h; exact Keeps.refl s
      · cases h; exact hf.trans (keeps_exception _ _ _ _ _)
      · rename_i s2 pc e
        cases h
        exact (hf.trans (hb _ _ _ _ e)).trans (keeps_modThread _ _ _ _)
    · cases h; exact hf.trans (keeps_exception _ _ _ _ _)
  · cases h; exact Keeps.refl s

theorem keeps_complete (s : State) (c : Nat) (tr : Track) (err : Bool) (cop : Nat) : Keeps s (s.complete c tr err cop) := by
  unfold State.complete
  extract_lets s1
  have h1 : Keeps s s1 := by
    simp only [s1]
    split
    · exact keeps_modThread _ _ _ _
    · exact Keeps.refl s
  split
  · split
    · exact h1.trans (keeps_stepFault _ _ _ _ _)
    · exact (h1.trans (keeps_stepFault _ _ _ _ _)).trans (keeps_post _ _ _ _ _ _ _ _)
  · exact h1

end Sys2Proof.Machine
end

