-- ==== Sys2Proof/Laws/Wire.lean ====
section
/-! SUPPORT. What frames and groups say on the wire: the halves of a control word, the lengths of Aukor fields, how a tagged frame is
read, and what the host port's buffers do with a frame. -/

namespace Sys2Proof.Machine

open Sys2Proof.Safety

/-! ## Groups (R261) -/

theorem Group.wire_hi (g : Group) : g.wire.hi = g.ctlHi := by
  simp only [GroupWire.hi, Group.wire]
  exact BitVec.extractLsb'_append_eq_left

/-- A group that is sent has a good CRC. -/
theorem Group.wire_crcOk (g : Group) : g.wire.crcOk = true := by
  unfold GroupWire.crcOk
  rw [Group.wire_hi]
  have e : g.wire.ctl.extractLsb' 0 32 = groupCrc g.wire.flits g.ctlHi := by
    simp only [Group.wire]
    exact BitVec.extractLsb'_append_eq_right
  simp [e]

/-! ## Lengths -/

@[simp] theorem leBytes_length (n x : Nat) : (leBytes n x).length = n := by
  induction n generalizing x with
  | zero => rfl
  | succ n ih => simp [leBytes, ih]

@[simp] theorem beBytes_length (n x : Nat) : (beBytes n x).length = n := by simp [beBytes]

@[simp] theorem zeros_length (n : Nat) : (zeros n).length = n := by simp [zeros]

@[simp] theorem digBytes_length (d : BitVec 384) : (digBytes d).length = 48 := by simp [digBytes]

/-- A tag has 16 bytes (R351). -/
@[simp] theorem frameTag_length (k m : List Byte) : (frameTag k m).length = 16 := by simp [frameTag, hmac384]

/-! ## Aukor frames (R351) -/

/-- A part read where it stands. -/
theorem slice_mid (a m c : List Byte) : slice (a ++ (m ++ c)) a.length m.length = m := by
  simp [slice]

theorem leNat_leBytes (n x : Nat) : leNat (leBytes n x) = x % 256 ^ n := by
  induction n generalizing x with
  | zero => simp [leBytes, leNat, Nat.mod_one]
  | succ n ih =>
    have e : 256 ^ (n + 1) = 256 * 256 ^ n := by rw [Nat.pow_succ, Nat.mul_comm]
    simp only [leBytes, leNat, ih, BitVec.toNat_ofNat, e, Nat.mod_mul]

theorem beNat_beBytes (n x : Nat) : beNat (beBytes n x) = x % 256 ^ n := by
  simp [beNat, beBytes, leNat_leBytes]

/-- A big-endian field read where it stands. -/
theorem beAt_mid {l a c : List Byte} {n x o : Nat} (e : l = a ++ (beBytes n x ++ c)) (h : a.length = o) : beAt l o n = x % 256 ^ n := by
  subst e h
  have := slice_mid a (beBytes n x) c
  rw [beBytes_length] at this
  rw [beAt, this, beNat_beBytes]

theorem slice_mid' {l a m c : List Byte} {o n : Nat} (e : l = a ++ (m ++ c)) (h : a.length = o) (k : m.length = n) : slice l o n = m := by
  subst e h k; exact slice_mid a m c

theorem res0_mid {l a c : List Byte} {n o : Nat} (e : l = a ++ (zeros n ++ c)) (h : a.length = o) : res0 l o n = true := by
  rw [res0, slice_mid' e h (zeros_length n)]; simp [allZero, zeros]

theorem AukorHead.bytes_length (h : AukorHead) (n : Nat) : (h.bytes n).length = 32 := by simp [AukorHead.bytes]

/-- A 64 b field written in 8 bytes is read back whole. -/
theorem ofNat_toNat_mod (x : DWord) : BitVec.ofNat 64 (x.toNat % 256 ^ 8) = x := by
  rw [Nat.mod_eq_of_lt (by have := x.isLt; omega), BitVec.ofNat_toNat, BitVec.setWidth_eq]

/-- A frame in its layout is read as what it was made of (R351). -/
theorem aukorParse_frame (h : AukorHead) (b t : List Byte) (hv : h.ver < 256) (ht : h.type ≤ 8) (hf : h.frag < 256) (hn : b.length ≤ 1400)
    (ok : h.ok = true) (body : bodyOk h.type b = true) (tl : t.length = if tagged h.type then 16 else 0) :
    aukorParse (h.bytes b.length ++ b ++ t) = some ⟨h, b, if tagged h.type then t else zeros 16, h.bytes b.length ++ b⟩ := by
  obtain ⟨ver, type, frag, session, counter⟩ := h
  simp only at hv ht hf body tl
  generalize hl : AukorHead.bytes ⟨ver, type, frag, session, counter⟩ b.length ++ b ++ t = l
  have cut : l.take (32 + b.length) = AukorHead.bytes ⟨ver, type, frag, session, counter⟩ b.length ++ b := by
    rw [← hl]; exact List.take_left' (by simp [AukorHead.bytes_length])
  have tag : slice l (32 + b.length) 16 = if tagged type then t else zeros 16 := by
    have e : l.drop (32 + b.length) = t := by rw [← hl]; exact List.drop_left' (by simp [AukorHead.bytes_length])
    simp only [slice, e]
    split at tl
    · rename_i h
      simp [h, tl, List.take_of_length_le]
    · rename_i h
      have z : t = [] := List.length_eq_zero_iff.mp tl
      simp [h, z, zeros]
  have len : l.length = 32 + b.length + if tagged type then 16 else 0 := by
    rw [← hl, ← tl]; simp [AukorHead.bytes_length]; omega
  have hb : slice l 32 b.length = b :=
    slice_mid' (a := AukorHead.bytes ⟨ver, type, frag, session, counter⟩ b.length) (c := t) (by rw [← hl, List.append_assoc])
      (AukorHead.bytes_length _ _) rfl
  simp only [AukorHead.bytes, List.append_assoc] at hl
  have at_ {n x : Nat} (o : Nat) (a : List Byte) {c : List Byte} (e : a ++ (beBytes n x ++ c) = l) (h : a.length = o) :
      beAt l o n = x % 256 ^ n := beAt_mid e.symm h
  have e0 : beAt l 0 4 = aukorMagic := (at_ 0 [] (x := aukorMagic) hl rfl).trans rfl
  have e4 : beAt l 4 1 = ver := (at_ 4 (beBytes 4 aukorMagic) hl (by simp)).trans (Nat.mod_eq_of_lt hv)
  have h5 := hl
  rw [← List.append_assoc] at h5
  have e5 : beAt l 5 1 = type := (at_ 5 _ h5 (by simp)).trans (Nat.mod_eq_of_lt (by omega))
  have h6 := h5
  rw [← List.append_assoc] at h6
  have e6 : beAt l 6 1 = frag := (at_ 6 _ h6 (by simp)).trans (Nat.mod_eq_of_lt hf)
  have h7 := h6
  rw [← List.append_assoc] at h7
  have e7 : res0 l 7 1 = true := res0_mid h7.symm (by simp)
  have h8 := h7
  rw [← List.append_assoc] at h8
  have e8 : BitVec.ofNat 64 (beAt l 8 8) = session := by
    rw [at_ 8 _ h8 (by simp)]; exact ofNat_toNat_mod session
  have h10 := h8
  rw [← List.append_assoc] at h10
  have e10 : BitVec.ofNat 64 (beAt l 0x10 8) = counter := by
    rw [at_ 0x10 _ h10 (by simp)]; exact ofNat_toNat_mod counter
  have h18 := h10
  rw [← List.append_assoc] at h18
  have e18 : beAt l 0x18 2 = b.length := (at_ 0x18 _ h18 (by simp)).trans (Nat.mod_eq_of_lt (by omega))
  have h1a := h18
  rw [← List.append_assoc] at h1a
  have e1a : res0 l 0x1A 6 = true := res0_mid h1a.symm (by simp)
  unfold aukorParse
  simp only [e0, e4, e5, e6, e7, e8, e10, e18, e1a, hb, tag, cut, ok, body, true_and, and_true]
  rw [if_pos ⟨by omega, hn, len⟩]

/-! ## The host port (R342, R344, R345) -/

/-- A pause frame, or nothing: only the sign that it was sent, the outputs and a counter may differ. -/
theorem State.watchBuf_frame (s : State) :
    { s.watchBuf with host := { s.watchBuf.host with xoff := s.host.xoff }, ctl := { s.watchBuf.ctl with out := s.ctl.out }, regs := s.regs }
      = s := by
  unfold State.watchBuf State.sendPause
  dsimp only
  split
  · rfl
  · split
    · split <;> rfl
    · rfl

/-- A frame that fits is taken. -/
theorem State.frameIn_fits {s : State} {e : EthHead} {b : Bool} (h : Fits s e b) : s.frameIn e b = (took s e b, true) := by
  obtain ⟨h1, h2, h3⟩ := h
  unfold State.frameIn
  dsimp only
  rw [if_neg (by omega)]
  rfl

/-- One that does not is dropped and counted. -/
theorem State.frameIn_not_fits {s : State} {e : EthHead} {b : Bool} (h : ¬Fits s e b) : s.frameIn e b = (s.bump rxDrop, false) := by
  unfold State.frameIn
  dsimp only
  rw [if_pos (by simp only [Fits] at h; omega)]

end Sys2Proof.Machine
end

