-- ==== Sys2Proof/Machine/Pins.lean ====
section
/-! DEFINITION. The output pins of connector SB as the state drives them; true is the high level of a pulled-up pin (R273,
R369, R434, R443, R456, R477). The input pins are commands: PWR_EN, MOD_RESET_N, STRAP, REFCLK, I3C. -/

namespace Sys2Proof.Machine

/-- PRESENT_N is tied low inside a seated module. -/
def State.presentN (_s : State) : Bool := false

/-- PWR_GOOD is high while every main rail is good. -/
def State.pwrGoodPin (s : State) : Bool := s.pwr.pwrGood

/-- MOD_ALERT_N is low for FATAL, for HELD, and in the boot ROM when no slot passes. -/
def State.modAlertN (s : State) : Bool := !(decide (s.pstate ≠ .off) && (s.isHeld || s.ev.fatal || s.sec.romOnly))

/-- THERM_TRIP_N is low after a thermal trip until PWR_EN falls. -/
def State.thermTripN (s : State) : Bool := !s.pwr.thermN

/-- BYPASS_ST[a] is low while the bypass of axis `a` is open. -/
def State.bypassSt (s : State) (a : AxisId) : Bool := s.bypass.getLsbD a

end Sys2Proof.Machine
end

