-- ==== Sys2Proof/Tests/Slice0.lean ====
section
/-! SUPPORT. Tests of the model: each is one command on a small state, or shows a state and operands that meet the hypotheses of a
statement, clause by clause. Expected values come from the manual's tables and worked examples or by hand from its rules. -/

namespace Sys2Proof.Tests

set_option Elab.async false

open Sys2Proof Sys2Proof.Machine Sys2Proof.Safety

/-! ## Small states -/

/-- `s` with the word of a thread instruction at its thread's PC. -/
def placed (i : Instr) (s : State) : State :=
  match threadOp i with
  | some (op, c, t, f) =>
    { s with mem := writeBytes s.regions s.mem (sliceBase c + (s.thread c t).pc.toNat) (leBytes 8 (f.word op).toNat) }
  | none => s

/-- The state after a command, a thread instruction with its word at the PC; every command answers a next state. -/
def run (i : Instr) (s : State) : State :=
  match exec i (placed i s) with
  | .next u => u
  | _ => s

/-- A key id. -/
def k1 : BitVec 128 := 0x5B1E

/-- The owner record of session 0. -/
def own0 : OwnRec := { owned := true, epoch := 7, key := some k1, sess := some 0, sid := 0x100, deadline := 1000000000 }

/-- An open session. -/
def sess0 : SessSt := { st := .open_, id := 0x100, ver := 0x22, key := k1, cout := 1 }

/-- A module in Run after start-up, without an image, owned by session 0; core 0 is ready, with 64 KiB of program at its second 64 KiB, and
thread 0 is about to run the first instruction. -/
def base : State :=
  { boot := { released := true, fw := true, coreFw := true, done := true }
    halves := [(0, { lead := true, up := true }), (1, { up := true })]
    bridge := { dataUp := true, sideUp := true }
    cores := [(0, { ready := true, progBase := 1, progSize := 1
                    thr := [(0, { st := .run, pc := 0x10000, s := [(1, 5), (2, 7)] })] })]
    ctl := { own := own0, mirror := own0, sess := [(0, sess0)] } }

/-- `base` with other registers of thread 0 of core 0. -/
def withRegs (s : Map DWord) : State := base.modThread 0 0 fun x => { x with s := s }

/-- The head of session 0's commands. -/
def hd0 : Head := ⟨0, 1, 7⟩

/-- Session 0's command with an opcode and arguments. -/
def cmd0 (op : Nat) (args : List Byte) : Cmd := ⟨0, 0x100, 1, 7, op, args⟩

/-- `s` with a command of session 0 at the front of the queue. -/
def asked (s : State) (op : Nat) (args : List Byte) : State := s.modCtl fun k => { k with cmdq := [cmd0 op args] }

/-- What keeps the queue's first command from being taken is absent from a state whose record is `own0`. -/
theorem executes_asked (s : State) (op : Nat) (args : List Byte)
    (h : s.leadRuns = true ∧ s.ctl.pend = none ∧ s.ctl.fwd = none ∧ s.ctl.load = none ∧ s.isHeld = false ∧ s.ctl.own = own0
      ∧ (s.sess 0).id = 0x100) : Executes (asked s op args) hd0 op args (cmd0 op args) [] := by
  obtain ⟨h1, h2, h3, h4, h5, h6, h7⟩ := h
  have a : (asked s op args).ctlFree op = true := by
    have e1 : (asked s op args).ctl.pend = none := h2
    have e2 : (asked s op args).ctl.fwd = none := h3
    have e3 : (asked s op args).ctl.load = none := h4
    simp [State.ctlFree, e1, e2, e3]
  have e : (asked s op args).ctl.own = own0 := h6
  refine ⟨⟨h1, a, rfl, rfl, rfl, rfl, rfl, rfl⟩, h5, ?_, ?_, ?_, h7, ?_⟩ <;> rw [e] <;> rfl

/-- A command of session 0 that waits in `base` is carried out. -/
theorem executes_base (op : Nat) (args : List Byte) : Executes (asked base op args) hd0 op args (cmd0 op args) [] :=
  executes_asked base op args (by decide)

/-- `s` with a read or subscription of session 0 waiting. -/
def reads0 (s : State) (op : Nat) (args : List Byte) : State := s.modCtl fun k => { k with readq := [cmd0 op args] }

theorem reads_base (op : Nat) (args : List Byte) : Reads (reads0 base op args) hd0 op args (cmd0 op args) [] :=
  ⟨rfl, rfl, rfl, rfl, rfl, rfl, rfl⟩

theorem owns_base : Owns base 0 := by unfold Owns; decide

/-! ## The machine as a whole -/

/-- `base` with frames in its receive buffers. -/
def filled : State := { base with host := { fillMgmt := 60, fillBulk := 2000000 } }
theorem witness_StepRunsTheFront : base.pending = [] ∧ base.ctl.load = none ∧ base.host.fillMgmt = 0 ∧ base.host.fillBulk = 0 ∧ base.pstate ≠ .off
    ∧ filled.pending = [] ∧ filled.ctl.load = none ∧ filled.pstate ≠ .off := by decide
theorem witness_MemoryStaysCanonical : memWf base.mem = true ∧ step base = .next base.tick := ⟨rfl, rfl⟩
theorem test_front : step { base with pending := [.add 0 0 { ra := 3, rb := 1, rc := 2 }, .bridgeReplay] }
    = exec (.add 0 0 { ra := 3, rb := 1, rc := 2 }) { base with pending := [.bridgeReplay] } := rfl

/-- `base` after its power has gone. -/
def dark : State := run .pwrEnFall base

theorem witness_OffIsEnteredAndLeft : OffRests base ∧ base.pstate ≠ .off ∧ exec .pwrEnFall base = .next dark ∧ dark.pstate = .off := by
  refine ⟨?_, by decide, rfl, by decide⟩
  intro h; exact absurd h (by decide)
/-- In Off with PWR_EN high and the input in its range, 10 ms less one cycle after it came. -/
def waiting_ : State := { dark with now := 9999999, pwr := { dark.pwr with pwrEn := true } }
theorem witness_StageStartsInTime : OffRests waiting_ ∧ waiting_.pending = [] ∧ waiting_.pstate = .off
    ∧ (match step waiting_ with | .next u => u.pstate | _ => .off) = .run := by
  refine ⟨fun _ => ⟨?_, ?_, ?_, ?_⟩, ?_, ?_, ?_⟩ <;> decide
theorem test_trip_enters_off : (run (.trip [.uv]) base).pstate = .off ∧ (run (.trip [.uv]) base).pwr.trip = 8 := by decide
theorem test_reset_pins : State.reset.pwrGoodPin = true ∧ State.reset.bypassSt 0 = true := by decide

/-! ## Single rules -/

/-- `base` with a second open session, of another key. -/
def twoSess : State := base.modSess 1 fun _ => { sess0 with id := 0x201, key := 9 }

theorem witness_RefusedAccesses : twoSess.leadRuns = true ∧ (twoSess.sess 1).st = .open_ ∧ twoSess.isOwner 1 = false
    ∧ decodeReg (0x000FFFF0 : Word).toNat = none := by decide
theorem test_write_of_observer : exec (.regWrite (.sess 1) 0x18 5) twoSess = .next (twoSess.emit (.regStatus 0x18 3)) := rfl
theorem test_write_of_owner : (run (.regWrite (.sess 0) 0x18 5) base).raw 0x18 = 5 := by decide

/-- `base` with a receive counter two below its limit. -/
def nearFull : State := base.modCore 0 fun k => { k with rc := [(15, 0xFFFFFFFE)] }

theorem witness_ReceiveCounters : mapGet 0 (nearFull.core 0).rc 15 < 2 ^ 32 ∧ mapGet 0 (nearFull.core 0).rc 15 + 1 < 2 ^ 32
    ∧ 2 ^ 32 ≤ mapGet 0 (nearFull.core 0).rc 15 + 2 := by decide
theorem test_rc_limit : mapGet 0 ((nearFull.addRc 0 15 1).core 0).rc 15 = 0xFFFFFFFF ∧ ((nearFull.addRc 0 15 1).core 0).stepFault = false := by
  decide
theorem test_rc_past_limit : mapGet 0 ((nearFull.addRc 0 15 2).core 0).rc 15 = 0xFFFFFFFF
    ∧ ((nearFull.addRc 0 15 2).core 0).stepFault = true := by decide

theorem witness_TuningWord : base.blockOn 0 1 = true ∧ Ready base 0 0 [3] ∧ vok 1 = true := by unfold Ready; decide
/-- Lane 0 is 65 521 and lane 1 is -1: the word is 65 521 - 2 modulo 65 521. -/
theorem test_tuning_word : tuneWord (leBytes 4 65521 ++ leBytes 4 0xFFFFFFFF ++ zeros 248) = 65519 := by decide

theorem witness_StackPlacement : (({ size := 12, policy := 0 } : Region).policy ≤ 2) ∧ ({ size := 6, policy := 1, target := 1 } : Region).target ≤ 1
    ∧ ({ policy := 2, target := 11 } : Region).policy ≤ 2 ∧ ({ size := 12 } : Region).lo ≤ dramBase + 4096 := by decide
/-- Granule 1 of a module-wide region lies on stack 6, granule 12 at byte 4096 of stack 0 (R169). -/
theorem test_place : ({ size := 12 } : Region).place (dramBase + 4096) = (6, 0) ∧ ({ size := 12 } : Region).place (dramBase + 12 * 4096) = (0, 4096)
    := by decide

/-- A debug token for `base`: its challenge 0, owner key `k1`, 60 s. -/
def token : List Byte :=
  leBytes 4 0x544C4454 ++ [0x10, 0, 0, 0] ++ zeros 8 ++ leBytes 4 7 ++ leBytes 4 60 ++ zeros 16 ++ beBytes 16 k1.toNat

theorem witness_ChallengeDrawn : base.tokenOk token = true := by decide
theorem test_debug_enable : (run (.debugEnable hd0 token (some (token.take 0x38))) (asked base opDebug (argsDebug 1 token))).debugOn = true := by decide

theorem witness_StagedTables : base.rt.quiesced = true ∧ base.drained = true
    ∧ ({ base with rt := { base.rt with quiesced := false } } : State).rt.quiesced = false
    ∧ Owns { base with rt := { base.rt with quiesced := false } } 0 := by
  refine ⟨rfl, by decide, rfl, ?_⟩
  unfold Owns; decide
theorem test_table_write : mapGet 0xF (run (.rteTblDataWrite (.sess 0) 0xFE) base).rt.tblStaged 0 = 0xE := by decide

/-- `base` with heartbeats on their way, and silence for 100 µs behind it. -/
def beating (e : Word) : State :=
  { base with
    now := 100000, side := { hb := [e], echo := 1 }
    halves := [(0, { lead := true, up := true, armed := true }), (1, { up := true, armed := true })] }

theorem witness_Heartbeats : (base.half 0).lead = true ∧ (base.half 0).up = true ∧ base.boot.leadState = 0 ∧ base.side.sentAt = none
    ∧ (beating 7).side.hb = [7] ∧ (7 : Word) = (beating 7).ctl.mirror.epoch ∧ (8 : Word) ≠ (beating 8).ctl.mirror.epoch
    ∧ 0 < (beating 7).side.echo ∧ ((beating 7).half 1).armed = true ∧ ((beating 7).half 1).lastHb + 100000 ≤ (beating 7).now
    ∧ ((beating 7).half 1).hbLost = false ∧ (base.half 0).armed = false
    ∧ (base.half 0).since + 250000000 ≤ ({ base with now := 250000000 } : State).now := by decide
theorem test_foreign_epoch : (run .heartbeatRx (beating 8)).isHeld = true ∧ (run .heartbeatRx (beating 7)).isHeld = false := by decide
theorem test_hb_timeout : (run (.hbTimeout 1) (beating 7)).isHeld = true ∧ (run (.hbTimeout 1) { beating 7 with now := 99999 }).isHeld = false := by
  decide

/-! ## Scalar instructions and threads -/

def f123 : IFields := { ra := 3, rb := 1, rc := 2 }

/-- Whether a row is the one that its thread fetches, as a test. -/
def fetches (i : Instr) (s : State) : Bool := match threadOp i with | some (op, c, t, f) => s.spells c t op f | none => true
theorem fetches_iff (i : Instr) (s : State) (h : fetches i s = true) : Fetches i s := by
  intro op c t f e
  simpa [fetches, e] using h
/-- A placed instruction of each kind is the one that its thread fetches, and the thread is as ready as before. -/
theorem witness_Fetches : (∀ i, i ∈ [Instr.add 0 0 f123, .srd 0 0 { ra := 3, imm := 5 }, .beq 0 0 { rb := 1, rc := 2, imm := 0x3FFFFFFF },
      .ld64 0 0 { ra := 3, rb := 1 }, .st64 0 0 { rb := 1, rc := 2 }, .vadd 0 0 f123, .vcvt 0 0 { ra := 3, rb := 1, imm := 0x20000000 },
      .vsradd 0 0 { ra := 4, rb := 1, rc := 2, rd := 1 }, .adrain 0 0 { ra := 4, rb := 7, rc := 2, imm := 0x20 },
      .move 0 0 { ra := 1, wen := true, wctr := 3 }, .wait 0 0 { ra := 3, wctr := 2 }, .bar 0 0 { imm := 0x203 }, .csig 0 0 { imm := 5 }] →
      fetches i (placed i base) = true ∧ (placed i base).canIssue 0 0 = true ∧ ((placed i base).thread 0 0).free [3, 1, 2] = true)
    ∧ fetches (.add 0 0 f123) (placed (.sub 0 0 f123) base) = false := by decide +kernel

theorem witness_ScalarResults : Ready base 0 0 [3, 1, 2] ∧ Ready base 0 0 [3, 1, 2, 1] ∧ Ready base 0 0 [] ∧ f123.plain = true ∧ f123.rd = 0
    ∧ f123.imm = 0 ∧ (7 : BitVec 30).toNat < 8 := by unfold Ready; decide
theorem test_sub : ((run (.sub 0 0 f123) base).thread 0 0).sreg 3 = 0xFFFFFFFFFFFFFFFE
    ∧ ((run (.sub 0 0 f123) base).thread 0 0).pc = 0x10008 := by decide
theorem test_divu_by_zero : ((run (.divu 0 0 { ra := 3, rb := 1 }) base).thread 0 0).sreg 3 = 0xFFFFFFFFFFFFFFFF := by decide
theorem test_remu_by_zero : ((run (.remu 0 0 { ra := 3, rb := 1 }) base).thread 0 0).sreg 3 = 5 := by decide
theorem test_mulh_signed : ((run (.mulh 0 0 f123) (withRegs [(1, 0xFFFFFFFFFFFFFFFF), (2, 2)])).thread 0 0).sreg 3 = 0xFFFFFFFFFFFFFFFF := by decide
theorem test_sar : ((run (.sar 0 0 f123) (withRegs [(1, 0x8000000000000000), (2, 67)])).thread 0 0).sreg 3 = 0xF000000000000000 := by decide
theorem test_s0_discards : ((run (.add 0 0 { ra := 0, rb := 1, rc := 2 }) base).thread 0 0).sreg 0 = 0 := by decide
theorem test_lsh : ((run (.lsh 0 0 { ra := 3, rb := 1, imm := 0x3FFFFFFF }) base).thread 0 0).sreg 3 = 0x17FFFFFFF := by decide
theorem test_li_negative : ((run (.li 0 0 { ra := 3, imm := 0x3FFFFFFF }) base).thread 0 0).sreg 3 = 0xFFFFFFFFFFFFFFFF := by decide
theorem test_srd_core : ((run (.srd 0 0 { ra := 3, imm := 5 }) base).thread 0 0).sreg 3 = 0 := by decide

theorem witness_BranchesAndJumps : Ready base 0 0 [1, 2] ∧ Ready base 0 0 [3] ∧ Ready (withRegs [(1, 0x10010)]) 0 0 [3, 1]
    ∧ (((withRegs [(1, 0x10010)]).thread 0 0).sreg 1).toNat % 8 = 0 ∧ (((withRegs [(1, 0x10010)]).thread 0 0).sreg 1).toNat < 2 ^ 26 := by
  unfold Ready; decide
theorem test_blt_back : ((run (.blt 0 0 { rb := 1, rc := 2, imm := 0x3FFFFFFF }) base).thread 0 0).pc = 0xFFF8 := by decide
theorem test_jal_link : ((run (.jal 0 0 { ra := 3, imm := 2 }) base).thread 0 0).sreg 3 = 0x10008
    ∧ ((run (.jal 0 0 { ra := 3, imm := 2 }) base).thread 0 0).pc = 0x10010 := by decide
theorem test_jalr_same_register : ((run (.jalr 0 0 { ra := 1, rb := 1 }) (withRegs [(1, 0x10020)])).thread 0 0).pc = 0x10020 := by decide

theorem witness_ScalarLoads : Ready (withRegs [(1, 0x3FFFFF8)]) 0 0 [3, 1]
    ∧ (((withRegs [(1, 0x3FFFFF8)]).thread 0 0).sreg 1).toNat % 8 = 0 ∧ sliceBase 0 ≤ 0x3FFFFF8 ∧ 0x3FFFFF8 + 8 ≤ sliceBase 0 + sliceSize := by
  unfold Ready; decide
theorem witness_ScalarStores : Ready (withRegs [(1, 0xFFF8)]) 0 0 [1, 2] ∧ (0xFFF8 : Nat) % 8 = 0
    ∧ (withRegs [(1, 0xFFF8)]).inProg 0 0xFFF8 8 = false ∧ (withRegs []).ecc = [] := by unfold Ready; decide
theorem test_store_bytes : (run (.st32 0 0 { rb := 1, rc := 2 }) (withRegs [(1, 0x40), (2, 0xAABBCCDD11223344)])).bytes 0x3F 6
    = [0, 0x44, 0x33, 0x22, 0x11, 0] := by decide
theorem test_load_zero_extends : ((run (.ld16 0 0 { ra := 3, rb := 1 }) { withRegs [(1, 0x40)] with mem := [(0x40, 0xFE), (0x41, 0xFF)] }).thread
    0 0).sreg 3 = 0xFFFE := by decide

theorem witness_ThreadExceptionEffect : (base.core 0).stepFault = false := by decide
theorem test_exception : ((base.exception 0 0 .align 12).thread 0 0).st = .faulted ∧ ((base.exception 0 0 .align 12).core 0).sfCode = 3
    ∧ ((base.exception 0 0 .align 12).thread 0 0).excAddr = 12 := by decide

theorem witness_ThreadExceptionCauses : Ready base 0 0 [3, 1, 2] ∧ ({ f123 with wen := true } : IFields).plain = false
    ∧ Ready base 0 0 [3, 1] ∧ ((base.thread 0 0).sreg 1).toNat % 8 ≠ 0
    ∧ (sliceBase 0 + sliceSize < ((withRegs [(1, 0x3FFFFFC + 4)]).thread 0 0 |>.sreg 1).toNat + 8)
    ∧ 2 ^ 26 ≤ (((withRegs [(1, 0x4000000)]).thread 0 0).sreg 1).toNat
    ∧ (withRegs [(1, 0x10000)]).inProg 0 0x10000 8 = true ∧ Ready (withRegs [(1, 0x10000)]) 0 0 [1, 2] := by unfold Ready; decide
theorem test_misaligned_load : ((run (.ld64 0 0 { ra := 3, rb := 1 }) base).thread 0 0).cause = some .align := by decide
theorem test_store_to_program : ((run (.st64 0 0 { rb := 1, rc := 2 }) (withRegs [(1, 0x10000)])).thread 0 0).cause = some .prot := by decide
theorem test_illegal_first : ((run (.ld64 0 0 { ra := 3, rb := 1, rd := 1 }) base).thread 0 0).cause = some .illegal := by decide
/-- Thread 0 at the end of its program region. -/
def pastEnd : State := base.modThread 0 0 fun x => { x with pc := 0x20000 }
theorem witness_FetchOutsideProgram : pastEnd.running = true ∧ pastEnd.blockOn 0 2 = true ∧ (pastEnd.core 0).ready = true
    ∧ (pastEnd.core 0).faultState = false ∧ (pastEnd.thread 0 0).st = .run ∧ (pastEnd.thread 0 0).waitOn = .none
    ∧ pastEnd.pcOk 0 (pastEnd.thread 0 0).pc = false := by decide
theorem test_fetch_prot : ((run (.fetchProt 0 0) pastEnd).thread 0 0).cause = some .prot
    ∧ ((run (.fetchProt 0 0) pastEnd).thread 0 0).excAddr = 0x20000 := by decide

/-! ## Vector instructions -/

/-- v1 with lane 0 and v2 with lane 0, of 32 bits. -/
def withV (a b : Nat) : State :=
  base.modThread 0 0 fun x => { x with v := [(1, BitVec.ofNat 2048 a), (2, BitVec.ofNat 2048 b)] }

/-- Fields FMT_D, FMT_S and MOD. -/
def vimm (d q m : Nat) : BitVec 30 := BitVec.ofNat 30 (d * 2 ^ 26 + q * 2 ^ 22 + m)

theorem witness_VectorArithmetic : base.blockOn 0 1 = true ∧ f123.plain = true ∧ f123.mod = 0 ∧ noScalePartRec f123 = true ∧ arithFmts f123 = true
    ∧ vok f123.ra = true ∧ vok f123.rb = true ∧ Ready base 0 0 (rcRegs f123) ∧ rcOk f123 = true ∧ vok 2 = true ∧ f123.scb = false := by
  unfold Ready; decide +kernel
theorem test_vmul : VReg.lane (((run (.vmul 0 0 f123) (withV 0x3FC00000 0x40000000)).thread 0 0).vreg 3) 32 0 = 0x40400000 := by decide +kernel
/-- 2^24 + 1 in binary32 is a tie, to the even code. -/
theorem test_vadd_ties_to_even : VReg.lane (((run (.vadd 0 0 f123) (withV 0x4B800000 0x3F800000)).thread 0 0).vreg 3) 32 0 = 0x4B800000 := by decide +kernel
theorem test_vmin_zero : VReg.lane (((run (.vmin 0 0 f123) (withV 0 0x80000000)).thread 0 0).vreg 3) 32 0 = 0x80000000 := by decide +kernel

theorem witness_VectorSelectsAndMasks : Ready base 0 0 [3] ∧ Ready base 0 0 [1] ∧ Ready base 0 0 [] ∧ ({ imm := vimm 0 0 4 } : IFields).mod ≤ 4
    ∧ arithFmt ({ imm := vimm 4 4 0 } : IFields).fmtS = true ∧ ({ imm := vimm 0 8 0 } : IFields).fmtS < 9
    ∧ ({ imm := 1 } : IFields).im 29 1 = 0 := by unfold Ready; decide +kernel
theorem test_vcmp_nan_ne : VReg.lane (((run (.vcmp 0 0 { f123 with imm := vimm 0 0 4 }) (withV 0x7FC00000 0)).thread 0 0).vreg 3) 32 0 = 0xFFFFFFFF := by
  decide +kernel
theorem test_vmask : ((run (.vmask 0 0 { ra := 3, rb := 1 }) (withV (2 ^ 33 + 1) 0)).thread 0 0).sreg 3 = 3 := by decide +kernel
theorem test_vtune : ((run (.vtune 0 0 { ra := 3, rb := 1 }) (withV (2 ^ 33 + 1) 0)).thread 0 0).sreg 3 = 5 := by decide +kernel

theorem witness_VectorConversion : ({ ra := 3, rb := 1, imm := vimm 8 0 0 } : IFields).scaleOk = true
    ∧ cvtUsesRd { ra := 3, rb := 1, imm := vimm 8 0 0 } = false ∧ cvtBytes (cvtCount 8 0) 8 = 256
    ∧ pairOk 2 = true ∧ pairOk 14 = true ∧ Ready base 0 0 [2, 1] ∧ (tagOf ((base.thread 0 0).sreg 2)).1 ≠ 4095 := by unfold Ready; decide +kernel
/-- 1.5 rounds to the even integer 2 in SSI32 (scale 0). -/
theorem test_vcvt_ssi : VReg.lane (((run (.vcvt 0 0 { ra := 3, rb := 1, imm := vimm 8 0 0 }) (withV 0x3FC00000 0)).thread 0 0).vreg 3) 32 0 = 2 := by
  decide +kernel

theorem witness_VectorCarrierForms : isMx ({ imm := vimm 7 0 0 } : IFields).fmtD = true ∧ (({ imm := vimm 7 0 0 } : IFields).part + 1) * (8 * 4) ≤ 256
    ∧ ({ imm := vimm 7 0 0 } : IFields).im 25 0 = 0 ∧ ({} : IFields).im 29 14 = 0 ∧ ({} : IFields).im 12 0 = 0 ∧ ({} : IFields).im 21 14 = 0
    ∧ Ready base 0 0 ([3] ++ [2]) ∧ ({ imm := vimm 0 9 0 } : IFields).fmtS = 9 ∧ pairOk 0 = true := by unfold Ready; decide +kernel
/-- The worked example of R37: 7.5, 5.0, 2.6, 0.7 and -1.3 quantise to scale 0x7F. -/
def mxSource : Nat := 0x40F00000 + 0x40A00000 * 2 ^ 32 + 0x40266666 * 2 ^ 64 + 0x3F333333 * 2 ^ 96 + 0xBFA66666 * 2 ^ 128
theorem test_mx_scale : ((run (.vqsc 0 0 { ra := 3, rb := 1, imm := vimm 7 0 0 }) (withV mxSource 0)).thread 0 0).sreg 3 % 256 = 0x7F := by decide +kernel
/-- Its element codes are 7, 6, 5, 1 and 0xB. -/
theorem test_mx_codes : ((run (.vqmx 0 0 { ra := 3, rb := 1, imm := vimm 7 0 0 }) (withV mxSource 0)).thread 0 0).vreg 3 % 2 ^ 24 = 0x0B1567 := by decide +kernel
theorem test_viadd_saturates : VReg.lane (((run (.viadd 0 0 f123) (withV 0x7FFFFFFF 1)).thread 0 0).vreg 3) 32 0 = 0x7FFFFFFF
    ∧ ((run (.viadd 0 0 f123) (withV 0x7FFFFFFF 1)).core 0).vec.cst.spoiled = true := by decide +kernel

theorem witness_VectorReductions : redFmt 0 = true ∧ redFmt 2 = true ∧ ({ imm := 0x1E0 } : IFields).nreg = 16 ∧ ({ imm := 0x1E0 } : IFields).im 21 9 = 0
    ∧ Ready base 0 0 [2] := by unfold Ready; decide +kernel
theorem test_vrsum : VReg.lane (((run (.vrsum 0 0 { ra := 3, rb := 1, rc := 2 }) (withV (0x3F800000 + 0x40000000 * 2 ^ 32) 0)).thread 0 0).vreg 3)
    32 63 = 0x40400000 := by decide +kernel
/-- No element is present: VRMAX gives NaN. -/
theorem test_vrmax_empty : VReg.lane (((run (.vrmax 0 0 { ra := 3, rb := 1 }) (withV 0x3F800000 0)).thread 0 0).vreg 3) 32 0 = 0x7FC00000 := by
  decide +kernel

theorem witness_VectorLoadsAndStores : Ready (withRegs [(1, 0x3FFFF00)]) 0 0 [1] ∧ (0x3FFFF00 : Nat) % 64 = 0 ∧ 0x3FFFF00 + 256 ≤ sliceBase 0 + sliceSize
    ∧ 0x3FFFE80 + 384 ≤ sliceBase 0 + sliceSize ∧ (withRegs []).inProg 0 0xFF00 256 = false ∧ (withRegs []).inProg 0 0xFE80 384 = false := by
  unfold Ready; decide +kernel
theorem test_vst : (run (.vst 0 0 { rb := 1, rc := 1 }) ((withV (0xAA + 0xBB * 2 ^ 2040) 0).modThread 0 0 fun x => { x with s := [(1, 0x40)] })).byte
    0x13F = 0xBB := by decide +kernel

/-- `base` with table slot 1 loading for thread 0, and slot 0 valid with an empty table. -/
def tables : State :=
  base.modCore 0 fun k => { k with vec := { k.vec with valid := 3, tables := [(0, zeros 4128), (1, zeros 4128)], loads := [⟨2, 0, 0x40⟩] } }
theorem witness_VectorTablesAndUpdate : takeFirst (fun z : LutLoad => z.slot == 2) (tables.core 0).vec.loads = some (⟨2, 0, 0x40⟩, [])
    ∧ (tables.core 0).vec.loadingBy 0 0 = false ∧ bit (tables.core 0).vec.valid 0 = true ∧ bit (tables.core 0).vec.valid 1 = true
    ∧ lutFields { ra := 3, rb := 1 } = true ∧ Ready tables 0 0 [] ∧ Ready base 0 0 [2, 1] ∧ (0x40 : Nat) + 4128 ≤ sliceBase 0 + sliceSize
    ∧ base.inProg 0 0x40 4128 = false ∧ Ready (withRegs [(1, 0x40)]) 0 0 [1] := by unfold Ready; decide +kernel
theorem test_vlutld : ((run (.vlutld 0 0 { rb := 1, imm := 15 }) (withRegs [(1, 0x40)])).core 0).vec.loads = [⟨15, 0, 0x40⟩] := by decide +kernel

/-! ## The matrix array -/

/-- Registers of the worked example of R115, on core 0: the stream operand at offset 0x10_0000. -/
def arrRegs : State := withRegs [(4, 0x100000), (5, 0xFFFFFFFF00000200), (6, 0xFFFFFFFF), (7, 0x100000000)]

/-- The ASTREAM of the worked example of R115, lower word 0x8D0C_E000, with one m-row in place of 256. -/
def exStream : IFields := { ra := 4, rb := 5, rc := 6, wen := true, wctr := 2, imm := 0x0D0CC020 }

theorem witness_ArrayInstructionsQueue : exStream.trackOk = true ∧ partHas 0 (exStream.im 29 28) = true ∧ ((arrRegs.part 0 0).queue.length < 8)
    ∧ (arrRegs.thread 0 0).trackRoom (exStream.track 0) = true ∧ Ready arrRegs 0 0 [4, 5, 6, 0] ∧ inBits (exStream.im 21 18) = 8
    ∧ inBits (exStream.im 17 14) = 8 ∧ exStream.im 23 22 ≠ 3 ∧ exStream.im 13 5 = 1 ∧ maskOk 0 0 0xFFFFFFFF = true
    ∧ (arrRegs.part 0 0).effClaim 1 = none ∧ (arrRegs.part 0 0).effFmts = (none, none) ∧ narrowOk 3 3 0 0 0 true = true
    ∧ arrRegs.segFault 0 false (((upto 1).flatMap fun j => (maskRows 0xFFFFFFFF).map fun r => (0x100000 + j * 512 + r * 16, 16))) = none := by
  unfold Ready; decide +kernel
/-- The word of the worked example of R115. -/
theorem test_word : ({ ra := 4, rb := 5, rc := 6, wen := true, wctr := 2, imm := 0x0D0CE000 } : IFields).word (2, 2) = 0x408853028D0CE000
    ∧ wordOp 0x408853028D0CE000 = (2, 2) ∧ (wordFields 0x408853028D0CE000).imm = 0x0D0CE000 := by decide +kernel
/-- A reserved CLASS raises ILLEGAL (R110). -/
theorem test_reserved_class : ((run (.nop 0 0 {}) { base with mem := [(0x10007, 0xA0)] }).thread 0 0).st = .run
    ∧ (match exec (.nop 0 0 {}) { base with mem := [(0x10007, 0xA0)] } with
        | .next u => (u.thread 0 0).cause | _ => none) = some .illegal := by decide +kernel
theorem witness_Reserved : base.canIssue 0 0 = true ∧ opDefined (wordOp 0xA000000000000000) = false
    ∧ opDefined (wordOp (base.wordAt 0 0)) = true ∧ wordOp (base.wordAt 0 0) ≠ (0, 1) := by decide +kernel
/-- R130: of two threads that a receive counter satisfies the lower is served first. -/
def twoWait : State := (base.modThread 0 0 fun x => { x with rcWait := some (1, 2) }).modCore 0 fun k =>
  { k with rc := [(1, 3)], thr := k.thr ++ [(5, { st := .run, pc := 0x10000, s := [(1, 2)] })] }
theorem witness_RcOrder : twoWait.rcBehind 0 5 1 = true ∧ twoWait.rcBehind 0 0 1 = false
    ∧ (twoWait.thread 0 0).rcWait = some (1, 2) ∧ Ready twoWait 0 5 [1] := by unfold Ready; decide +kernel
theorem test_waitrc_order : mapGet 0 ((run (.waitrc 0 5 { rb := 1, imm := 1 }) twoWait).core 0).rc 1 = 3
    ∧ mapGet 0 ((run (.waitrc 0 0 { rb := 2, imm := 1 }) (twoWait.modThread 0 0 fun x => { x with s := [(2, 2)] })).core 0).rc 1 = 1 := by
  decide +kernel
/-- The default anchor of the worked example is -18. -/
theorem test_astream_queued : ((run (.astream 0 0 exStream) arrRegs).part 0 0).queue.map (fun o => (o.anchor, o.mcount, o.bank, o.fmtA))
    = [(-18, 1, 1, 3)] ∧ (((run (.astream 0 0 exStream) arrRegs).thread 0 0).wait 2).n = 1 := by decide +kernel

/-- An ALOAD of E4M3, one row; an ADRAIN and an ASEED of one m-row of one column. -/
theorem witness_AloadQueues : inBits 3 ≠ 0 ∧ ({ imm := BitVec.ofNat 30 (3 * 2 ^ 24) } : IFields).im 23 0 = 0
    ∧ arrRegs.segFault 0 false ((maskRows 1).flatMap fun r => (seqFrom (r * 16) 16).map fun k => (0x100000 + k * 512, 32)) = none
    ∧ drainFmt 8 = true ∧ maskOk 0 0 1 = true ∧ arrRegs.segFault 0 false [(0x100000, 4)] = none ∧ Ready arrRegs 0 0 [4, 7] ∧ Ready arrRegs 0 0 [4]
    ∧ ({ imm := 0x7F } : IFields).im 27 7 = 0 := by unfold Ready; decide +kernel

/-- `base` with another partition 0 of core 0. -/
def withPart (q : PartSt) : State := base.modPart 0 0 fun _ => q

def opLoad : ArrOp := { kind := .aload, addr := 0x100000, stride := 64, mask := 1, fmt := 3 }
def opStream : ArrOp := { kind := .astream, addr := 0x100000, stride := 512, mask := 1, fmtA := 3, fmtB := 3, mcount := 1, colMask := 1 }
def opMx : ArrOp := { opStream with fmtA := 5 }
def opDrain : ArrOp := { kind := .adrain, addr := 0x100000, stride := 64, outFmt := 0, mcount := 1, colMask := 1 }
def opSeed : ArrOp := { kind := .aseed, addr := 0x100000, stride := 64, mcount := 1, colMask := 1 }

theorem witness_ArrayLoadsAndPasses : base.arrRuns 0 = true ∧ ((withPart { queue := [opLoad] }).part 0 0).load = none
    ∧ ((withPart { load := some opLoad }).part 0 0).load = some opLoad ∧ partHas 0 0 = true ∧ isMx opMx.fmtA = true
    ∧ ((withPart { queue := [opStream] }).part 0 0).nextPass = some ({ op := opStream }, true)
    ∧ ((withPart { passes := [{ op := { opStream with mcount := 2 }, issued := 1 }] }).part 0 0).nextPass.isSome = true
    ∧ ((withPart {}).part 0 0).heldRow opStream 0 = false ∧ [({ col := 3 } : RowCol), { col := 4 }].map (·.col) = [3, 4] := by decide +kernel
theorem witness_StreamScale : ((withPart { queue := [opMx] }).part 0 0).queue.find? (fun o => decide (o.kind = .astream) && isMx o.fmtA
    && !((withPart { queue := [opMx] }).part 0 0 |>.sscale.any fun e => e.1 == o.id)) = some opMx := by decide +kernel
theorem test_aload_done : ((run (.aloadDone 0 0) { withPart { load := some opLoad } with mem := [(0x100000, 0x38)] }).part 0 0).shd.fmt = some 3
    ∧ mapGet 0 ((run (.aloadDone 0 0) { withPart { load := some opLoad } with mem := [(0x100000, 0x38)] }).part 0 0).shd.cells 0 = 0x38 := by
  decide +kernel
/-- One product of 1.0 by 1.0 of E4M3 with anchor -18 adds 2^18. -/
theorem test_row : ((rowCol { opStream with anchor := -18 } { fmt := some 3, cells := [(0, 0x38)] } (fun r => if r = 0 then [0x38] else []) (fun _ => 0)
    0).q) = 262144 := by decide +kernel
def rowPart : PartSt := { passes := [{ op := opStream, issued := 1, out := 1 }], rows := [{ cols := [{ col := 0, q := 5 }] }] }
theorem test_row_write : (mapGet {} ((run (.astreamRowWrite 0 0 ⟨0, []⟩) (withPart rowPart)).core 0).arr.acc 0 : Entry).v = 5 := by decide +kernel
/-- R81: a narrow row writes before an older wide row of the other bank, and never after 14 further issues of its path. -/
theorem test_row_order : (({ rows := [{ wide := true, bank := 1, age := 1 }, { age := 0 }] } : PartSt).nextWrite 0).isSome = true
    ∧ (({ rows := [{ wide := true, bank := 1, age := 31 }, { age := 0 }] } : PartSt).nextWrite 0) = none
    ∧ ({ rows := [{ age := 13 }] } : PartSt).heldRow opStream 0 = true := by decide +kernel
/-- R92: a byte of bad parity is met by every row that feeds its cell. -/
theorem test_parity : ((({} : Tile).upset ⟨2, 3, 1⟩).badParity 4 [3] = true) ∧ ((({} : Tile).upset ⟨2, 3, 1⟩).badParity 8 [3] = false)
    ∧ ((({} : Tile).upset ⟨2, 3, 3⟩).badParity 4 [3] = false) := by decide +kernel

def drainOf (t : List (Nat × Nat)) (r : Bool) : PartSt := { drains := [{ op := opDrain, todo := t, read := r }] }
theorem witness_ArrayDrainsFlagsAndSeeds : ((withPart { queue := [opDrain] }).part 0 0).drains = []
    ∧ ((withPart (drainOf [(0, 0)] false)).part 0 0).reading 0 = some { op := opDrain, todo := [(0, 0)] }
    ∧ (((withPart (drainOf [] true)).part 0 0).drains.find? fun d => d.op.bank == 0 && d.read).isSome = true
    ∧ (((withPart { seeds := [opSeed] }).part 0 0).seeds.find? fun o => o.bank == 0) = some opSeed
    ∧ ((withPart rowPart).part 0 0).nextWrite 0 = some (0, { cols := [{ col := 0, q := 5 }] })
    ∧ ((withPart { queue := [opDrain] }).part 0 0).allIssued = true ∧ drainOuts 0 0 opDrain = [(0, 0)]
    ∧ ((withPart { queue := [opDrain] }).part 0 0).inflight 0 = 0 ∧ inSlice 0 0x100000 4 = true
    ∧ ((drainOuts 0 0 opSeed).map fun x => accKey opSeed.bank (opSeed.mbase + x.1) x.2).Nodup ∧ inSlice 0 0x100040 4 = true
    := by decide +kernel
theorem test_drain_write : (run (.drainOutputWrite 0 0 ⟨0, .ok⟩) ((withPart (drainOf [(0, 0)] false)).modArr 0 fun a =>
    { a with acc := [(0, { v := 3, written := true })] })).bytes 0x100000 4 = [0, 0, 0x40, 0x40] := by decide +kernel
theorem test_seed_nan : (mapGet {} ((run (.aseedDone 0 ⟨0, 0⟩) { withPart { seeds := [opSeed] } with mem := [(0x100002, 0xC0), (0x100003, 0x7F)] }).core
    0).arr.acc 0 : Entry).tag = true := by decide +kernel
theorem test_aflag_done : ((run (.aflagDone 0 0) (withPart { flags := 5, queue := [{ dest := 3, clearMask := 1 }] })).thread 0 0).sreg 3 = 5
    ∧ ((run (.aflagDone 0 0) (withPart { flags := 5, queue := [{ dest := 3, clearMask := 1 }] })).part 0 0).flags = 4 := by decide +kernel

/-- `base` with the power of core 0's array in a state. -/
def powered (p : ArrPwr) (level timer : Nat) (cfg : Word) : State := base.modArr 0 fun a => { a with pwr := p, level := level, timer := timer, cfg := cfg }
theorem witness_ArrayPowerAndFaults : (powered .active 8 0 1).arrRuns 0 = true ∧ pwrDrone 1 = pwrDrone ((powered .active 8 0 1).core 0).arr.cfg
    ∧ ((powered .softStart 7 0 0).core 0).arr.timer ≤ (powered .softStart 7 0 0).now ∧ ((powered .softStart 8 0 0).core 0).arr.level = 8
    ∧ ((powered .rampDown 2 0 0).core 0).arr.pwr = .rampDown ∧ ((powered .rampDown 1 0 0).core 0).arr.level ≤ 1
    ∧ ((powered .drone 8 0 0).core 0).arr.pwr = .drone ∧ (base.core 0).ready = true ∧ (base.core 0).faultState = false := by decide +kernel
theorem witness_Drone : ∃ cfg : Word, pwrDrone cfg = true := ⟨0xFFFFFFFF, by decide +kernel⟩
theorem test_core_fault : ((run (.coreFaultState 0 .move) base).core 0).faultBits = 4 := by decide +kernel

/-! ## Moves, atomic operations and contributions -/

/-- A descriptor of R117: a local COPY of 8 bytes from 0x100 to 0x208 of slice 0. -/
def copyBytes : List Byte := leBytes 8 0x100 ++ leBytes 8 0x208 ++ zeros 16 ++ leBytes 4 8 ++ leBytes 2 1 ++ leBytes 2 1 ++ zeros 24
def copyDesc : MoveDesc := { src := 0x100, dst := 0x208, len0 := 8, cnt1 := 1, cnt2 := 1 }
/-- `base` with the descriptor at 0x40 and s1 on it. -/
def withDesc : State := { withRegs [(1, 0x40)] with mem := writeKeys [] 0x40 copyBytes }

theorem witness_MoveQueues : Ready withDesc 0 0 [1] ∧ (withDesc.core 0).mq.length < 64 ∧ (withDesc.thread 0 0).trackRoom ⟨0, false, 0⟩ = true
    ∧ ((withDesc.fetch 0 0).read 0x40 64 0 0).2.2 = false ∧ decodeMove (withDesc.bytes 0x40 64) = (copyDesc, true) ∧ copyDesc.legal = true
    ∧ copyDesc.dramDst = true ∧ copyDesc.aligned = true ∧ withDesc.footOk copyDesc = true ∧ withDesc.footProg copyDesc = false := by
  unfold Ready; decide +kernel
theorem test_move_queued : ((run (.move 0 0 { ra := 1 }) withDesc).core 0).mq = [⟨copyDesc, ⟨0, false, 0⟩⟩] := by decide +kernel

/-- `base` with a queued move and bytes at 0x100. -/
def queued (d : MoveDesc) : State := { base.modCore 0 fun k => { k with mq := [⟨d, {}⟩] } with mem := [(0x100, 0xAA), (0x107, 0xBB)] }
def putDesc : MoveDesc := { copyDesc with dst := 2 ^ 56 + 0x208, target := 1 }
theorem witness_MoveStarts : ((queued copyDesc).core 0).freeSlot = some 0 ∧ (queued copyDesc).moveRuns 0 = true
    ∧ (queued copyDesc).moveHeld copyDesc = false ∧ (queued putDesc).moveHeld putDesc = false ∧ copyDesc.atomic = false ∧ copyDesc.put = false ∧ copyDesc.get = false
    ∧ ({ copyDesc with kind := 3 } : MoveDesc).atomic = true ∧ putDesc.put = true ∧ putDesc.get = false
    ∧ copyDesc.srcAt 0 = 0x100 ∧ copyDesc.dstAt 0 = 0x208 ∧ (queued copyDesc).accRange 0 0x100 8 = .ok ∧ (queued copyDesc).accRange 0 0x208 8 = .ok
    ∧ (queued copyDesc).closedReq 0x208 8 = false ∧ 0x208 + 8 ≤ dramBase := by decide +kernel
theorem test_copy : (run (.moveStart 0) (queued copyDesc)).bytes 0x208 8 = [0xAA, 0, 0, 0, 0, 0, 0, 0xBB] := by decide +kernel

/-- `base` with a move running in slot 0 of core 0. -/
def running (m : RunMove) : State := base.setSlot 0 0 (some m)
theorem witness_MoveCompletes : ((running { done := true, err := true }).core 0).slot 0 = some { done := true, err := true }
    ∧ (running { done := true }).moveRuns 0 = true := by decide +kernel
theorem test_move_error : ((run (.moveComplete 0 0) (running { done := true, err := true })).core 0).stepFault = true := by decide +kernel

theorem witness_AtomicElements : [(0xFF : Byte), 0xFF, 0xFF, 0x7F].length = [(1 : Byte), 0, 0, 0].length
    ∧ 4 * 0 + 4 ≤ [(1 : Byte), 0, 0, 0].length ∧ 2 ^ (31 - 31) ≤ (sgn 32 1).natAbs := by decide
theorem test_add_saturates : (beatAdd [0xFF, 0xFF, 0xFF, 0x7F] [1, 0, 0, 0] none).data = [0xFF, 0xFF, 0xFF, 0x7F]
    ∧ (beatAdd [0xFF, 0xFF, 0xFF, 0x7F] [1, 0, 0, 0] none).spoil = true := by decide
theorem test_max_signed : wordsBy maxWord [0xFF, 0xFF, 0xFF, 0xFF] [1, 0, 0, 0] = [1, 0, 0, 0] := by decide

/-- The carrier region of the tests: one unit on each stack; its start is the first beat. -/
def carrier : Region := { size := 12, carrier := true }
/-- `base` with an atomic move of one beat from 0x100 of slice 0 to the first beat of the DRAM, onto ones. -/
def atomic (k : Nat) : State :=
  { running { op := { d := { src := 0x100, dst := dramBase, len0 := 256, cnt1 := 1, cnt2 := 1, kind := k } } } with
    regions := [carrier], stks := [(0, { f := { st := .on } })], mem := [(0x100, 3), (2 ^ 44, 1)] }
theorem witness_AtomicMovesOnABeat : ((atomic 3).core 0).slot 0 = some { op := { d := {
      src := 0x100, dst := dramBase, len0 := 256, cnt1 := 1, cnt2 := 1, kind := 3 } } }
    ∧ (atomic 3).moveRuns 0 = true ∧ regionAt (atomic 3).regions dramBase = some carrier ∧ carrier.size % carrier.w = 0
    ∧ (atomic 3).accRange 0 0x100 256 = .ok ∧ (atomic 3).accRange 0 dramBase 256 = .ok := by decide +kernel
theorem test_atomic_add : (run (.atomicAdd 0 0) (atomic 3)).byte dramBase = 4 ∧ (run (.atomicAdd 0 0) (atomic 3)).beatMeta carrier dramBase = (3, false)
    := by decide +kernel
theorem test_atomic_or : (run (.atomicOr 0 0) (atomic 5)).byte dramBase = 3 ∧ (run (.atomicOr 0 0) (atomic 5)).beatMeta carrier dramBase = (3, false)
    := by decide +kernel

/-- A move that owes a contribution to bucket 9, which expects two. -/
def owing (n : Nat) : State :=
  { atomic 3 with
    buckets := [(9, { base := dramBase, len := 256, expected := 2 })], bkt := [(9, { count := n, full := decide (2 ≤ n) })] }.setSlot 0 0
    (some { op := { d := { dst := dramBase, len0 := 256, cnt1 := 1, cnt2 := 1, kind := 3, contrib := true } }, owed := [0] })
theorem witness_BucketCounting : (owing 1).bucketOf dramBase 256 = some 9
    ∧ (owing 1).accKey (halfOf 0) ((owing 1).homeKey (mapGet {} (owing 1).buckets 9)) = .ok ∧ (mapGet {} (owing 2).bkt 9 : BktCnt).full = true := by
  decide +kernel
theorem test_bucket_full : mapGet {} (run (.contribRx 0 0) (owing 1)).bkt 9 = (⟨2, true, false⟩ : BktCnt)
    ∧ mapGet {} (run (.contribRx 0 0) (owing 2)).bkt 9 = (⟨3, true, true⟩ : BktCnt) := by decide +kernel

/-! ## The sync unit and the life of threads -/

theorem witness_WaitsAndReports : Ready base 0 0 [3] ∧ ((base.thread 0 0).wait 0).n ≤ ({} : IFields).im 7 0 ∧ Ready base 0 0 [1] ∧ Ready base 0 0 []
    ∧ ((base.thread 0 0).sreg 4).toNat % 2 ^ 32 ≤ mapGet 0 (base.core 0).rc 15 ∧ ({ imm := 0xFFFF } : IFields).im 29 16 = 0
    ∧ ({ imm := 0x1FFFF } : IFields).im 29 17 = 0 := by unfold Ready; decide
theorem test_wait_waits : ((run (.wait 0 0 { ra := 3 }) (base.modThread 0 0 fun x => { x with w := [(0, ⟨1, false⟩)] })).thread 0 0).pc = 0x10000 := by
  decide +kernel
theorem test_waitrc : mapGet 0 ((run (.waitrc 0 0 { rb := 1, imm := 15 }) (nearFull.modThread 0 0 id)).core 0).rc 15 = 0xFFFFFFF9 := by decide
theorem test_tend : ((run (.tend 0 0 {}) base).thread 0 0).st = .idle := by decide
theorem test_stepflt : ((run (.stepflt 0 0 { imm := 9 }) base).core 0).sfCode = 9 := by decide

/-- `base` with one group of core 0, and thread 1 waiting at barrier 3 for two. -/
def barred : State :=
  { (base.modThread 0 1 fun x => { x with st := .run, pc := 0x10000, waitOn := .bar 3 }).modCore 0 fun k => { k with bars := [(3, ⟨2, [1]⟩)] } with
    img := { groups := [1] } }
theorem witness_Barriers : Ready barred 0 0 [] ∧ ({ imm := 0x203 } : IFields).im 15 8 = 2 ∧ ({ imm := 0x203 } : IFields).im 7 3 = 0
    ∧ (barred.core 0).lutDone 0 = true ∧ (mapGet {} (barred.core 0).bars 3 : Bar).arr.length + 1 = 2
    ∧ (mapGet {} (barred.core 0).bars 2 : Bar).arr.length + 1 ≠ 2 ∧ (barred.group 0).isSome = true := by unfold Ready; decide
theorem test_bar_releases : ((run (.bar 0 0 { imm := 0x203 }) barred).thread 0 1).pc = 0x10008
    ∧ ((run (.bar 0 0 { imm := 0x203 }) barred).thread 0 1).waitOn = .none := by decide
/-- Core 0 has arrived at group barrier 0. -/
def arrivedAll : State := run (.gbar 0 0 { imm := 0x100 }) barred
theorem witness_GbarRelease : arrivedAll.group 0 = some [0] ∧ (arrivedAll.core 0).arrived 0 = true ∧ (0 : Nat) < 48 := by decide
theorem test_gbar_release : ((run (.gbarRelease 0) arrivedAll).thread 0 0).pc = 0x10008 := by decide

theorem witness_ThreadStart : Ready (withRegs [(1, 0x10000), (2, 9)]) 0 0 [1, 2] ∧ ((withRegs []).thread 0 5).st = .idle
    ∧ (withRegs []).pcOk 0 0x10000 = true ∧ (base.core 1).ready = false ∧ base.boot.coreFw = true ∧ (base.half (halfOf 1)).inReset = false := by
  unfold Ready; decide
theorem test_tstart : ((run (.tstart 0 0 { ra := 1, rb := 2, imm := 5 }) (withRegs [(1, 0x10000), (2, 9)])).thread 0 5).sreg 1 = 9 := by decide
theorem test_selftest_fails : ((run (.coreSelftestDone 1 true false) base).core 1).faultState = true := by decide


/-! ## Memory errors and the bridge -/

/-- `base` with a background scrub of the SRAM and of stack 0 that is on (24 s, 1 h) or off. -/
def scrubbing (on : Bool) : State :=
  { base with
    regs := [(aStk 0 0x014, if on then 0x80000001 else 1), (0xCC010, if on then 0x80000018 else 0x18)], now := 3600000000000
    stks := [(0, { f := { st := .on } })] }
theorem witness_ScrubAndWindows : ((scrubbing true).scrubCfg 12).1 = true ∧ isUnit 8 = true ∧ winOf 8 = 12 ∧ isUnit (2 ^ 44) = true
    ∧ winOf (2 ^ 44) = 0 ∧ ((scrubbing true).scrubCfg 0).1 = true ∧ ((scrubbing true).stack 0).f.st = .on
    ∧ ((scrubbing false).scrubCfg 12).1 = false ∧ ((scrubbing false).scrubCfg 0).1 = false
    ∧ mapGet 0 (scrubbing false).ceWin 12 + ((scrubbing false).scrubCfg 12).2 ≤ (scrubbing false).now
    ∧ mapGet 0 (scrubbing false).ceWin 0 + ((scrubbing false).scrubCfg 0).2 ≤ (scrubbing false).now
    ∧ (base.stack 0).temp < 95 ∧ 95 ≤ (95 : Byte).toNat := by decide +kernel
theorem test_scrub_counts : (run (.patrolScrub 8 (some .correctable)) (scrubbing true)).raw 0xCC000 = 1 := by decide +kernel
theorem test_refresh_rate : ((run (.stackTempChange 3 86) base).stack 3).refresh2x = true
    ∧ ((run (.stackTempChange 3 85) base).stack 3).refresh2x = false := by decide +kernel

/-- `base` with a bridge that has replayed `n` times. -/
def replayed (n : Nat) : State := { base with bridge := { base.bridge with replays := n } }
/-- `base` with a bridge in training. -/
def retraining (w : Bool) : State := { base with bridge := { training := true }, boot := { base.boot with warm := w } }
theorem witness_Bridge : (replayed 14).bridge.replays < 15 ∧ 15 ≤ (replayed 15).bridge.replays ∧ (replayed 15).bridge.dataUp = true
    ∧ ({ base with bridge := { down := 2, downAt := 5, replays := 15 }, now := 5 } : State).bridge.downAt = 5
    ∧ (retraining true).bridge.training = true ∧ (retraining true).boot.warm = true ∧ (retraining false).boot.warm = false := by decide
theorem test_sixteenth_replay : (run .bridgeReplay (replayed 15)).bridge.dataUp = false ∧ (run .bridgeReplay (replayed 14)).bridge.dataUp = true := by
  decide +kernel

/-! ## The synchronous step and the collectives -/

/-- Non-zero bytes of entry `e` of a schedule (R319), which the tests place at byte 0x1000 of the commons. -/
def at_ (e : Nat) (l : Map Byte) : Map Byte := l.map fun p => (commonsBase + 0x1000 + 64 * e + p.1, p.2)

/-- A schedule: OPEN; a reduce-scatter and an all-gather on X; OR64 of 8 bytes over X and over no axis; MICRO; MUTE; STRUM. -/
def schedule : Map Byte :=
  at_ 0 [(0, 4)] ++
  at_ 1 [(0, 1), (9, 1), (0xc, 1), (0x11, 0x10)] ++
  at_ 2 [(0, 2), (9, 1), (0xc, 1), (0x11, 0x10), (0x19, 1)] ++
  at_ 3 [(0, 3), (2, 1), (3, 2), (9, 1), (0xc, 1), (0x11, 0x10), (0x18, 8)] ++
  at_ 4 [(0, 3), (3, 2), (8, 0x10), (9, 1), (0xc, 1), (0x11, 0x10), (0x18, 8)] ++
  at_ 5 [(0, 4), (3, 1)] ++
  at_ 6 [(0, 4), (3, 2)] ++
  at_ 7 [(0, 4), (3, 3)]

/-- `base` with that schedule, all sequencers at entry `e`, which core 0, the one core of group 0, has released, and the step in a phase. This is module 0 of two. -/
def stepping (e : Nat) (p : Phase) : State :=
  { base with
    img := { loaded := true, recOff := some 0, sched := some (0x1000, 8, 0), groups := [1], coordValid := true, shape := ⟨2, 1, 1⟩, kinds := 0 }
    rt := { base.rt with quiesced := false }, mem := schedule, regs := [(0xB000C, 0x70020000)]
    col := { next := [e, e, e, e], rel := [(e, 1)] }, step := { phase := p } }

theorem witness_Open : (stepping 0 .idle).actReady 0 = some 0 ∧ (stepping 0 .failed).actReady 0 = some 0 ∧ (stepping 0 .idle).step.torn = false
    ∧ leAt ((stepping 0 .idle).recGet 0x1C 1).2 0 1 < 2 := by decide +kernel
theorem witness_Micro : (stepping 5 .window).actReady 1 = some 5 ∧ (stepping 5 .window).step.micro < (stepping 5 .window).nm1
    ∧ (stepping 5 .idle).actReady 1 = some 5 ∧ ({ stepping 5 .window with step := { phase := .window, micro := 2 } } : State).actReady 1 = some 5
    ∧ ({ stepping 5 .window with step := { phase := .window, micro := 2 } } : State).nm1 = 2 := by decide +kernel
theorem witness_MuteStrum : (stepping 6 .window).actReady 2 = some 6 ∧ (stepping 6 .idle).actReady 2 = some 6
    ∧ (stepping 7 .update).actReady 3 = some 7 ∧ (stepping 7 .window).actReady 3 = some 7 ∧ (stepping 7 .update).img.sched.isSome = true := by
  decide +kernel
theorem test_open : (run .openStep (stepping 0 .idle)).step.attempt = 1 ∧ (run .openStep (stepping 0 .idle)).byte (commonsBase + 0xD) = 1 := by
  decide +kernel
theorem test_micro : (run .micro (stepping 5 .window)).step.micro = 1 := by decide +kernel
theorem test_mute_refused : (run .mute (stepping 6 .idle)).byte (commonsBase + 0xE) = 1 ∧ (run .mute (stepping 6 .idle)).step.phase = .idle
    ∧ mapGet 0 ((run .mute (stepping 6 .idle)).core 5).rc 7 = 1 := by decide +kernel

/-- A vote in its phase, 1 ms after it began where the timeout is 1 ms. -/
def voting (p : Phase) (ready : Bool) : State :=
  { stepping 6 p with now := 1000000, regs := [(0xB0010, 1)], step := { phase := p, votedReady := ready } }
theorem witness_StepEndsAndVotes : (voting .muteVote false).voteDue = true ∧ (voting .muteVote false).step.phase = .muteVote
    ∧ (voting .strumVote true).voteDue = true ∧ (voting .strumVote true).step.phase = .strumVote
    ∧ ({ step := { actEnd := some (2, 0) } } : State).step.muted = false ∧ (stepping 6 .committing).step.phase = .committing
    ∧ leAt (zeros 512) 0 8 = 0 ∧ leAt (leBytes 8 1 ++ zeros 504) 0 8 ≠ 0 := by decide +kernel
theorem test_votes_time_out : (run .strumVoteTimeout (voting .strumVote true)).step.phase = .uncertain
    ∧ (run .strumVoteTimeout (voting .strumVote false)).step.phase = .failed
    ∧ (run .muteVoteTimeout (voting .muteVote false)).step.muted = true := by decide +kernel
theorem test_commit : (run .commitActionEnd (stepping 6 .committing)).step.committed = 1
    ∧ (run .commitActionEnd (stepping 6 .committing)).byte commonsBase = 1 := by decide +kernel

/-- The schedule's all-gather with WINDOW, in a re-tune attempt. -/
def windowed : State := { stepping 2 .window with
  col := { retune := true }, mem := at_ 0 [(0, 4)] ++ at_ 1 [(0, 2), (1, 4)] }
theorem witness_Csig : Ready (stepping 5 .window) 0 0 [] ∧ 5 < (stepping 5 .window).entries ∧ mapGet 0 (stepping 5 .window).col.rel 5 < 3
    ∧ (stepping 5 .window).windowPass 5 = false ∧ (stepping 5 .window).entries ≤ 8 ∧ windowed.windowPass 1 = true
    ∧ 3 ≤ mapGet 0 ({ stepping 5 .window with col := { rel := [(5, 3)] } } : State).col.rel 5 := by unfold Ready; decide +kernel
theorem test_csig : mapGet 0 (run (.csig 0 0 { imm := 5 }) (stepping 5 .window)).col.rel 5 = 2
    ∧ (run (.csig 0 0 { imm := 8 }) (stepping 5 .window)).col.csigXs = 1 := by decide +kernel

/-- A reduce-scatter that has run for 1 ms of 1 ms, and a drain as long. -/
def late : State := { stepping 2 .window with
  now := 1000000, regs := [(0xA0004, 0x10001)], col := { next := [2, 2, 2, 2], runs := [{ entry := 1, kind := 1 }], drains := [(5, 0)] } }
theorem witness_CollectiveTimers : ((late.runsOf 0).find? fun (r : ColRun) =>
      r.kind != 4 && decide (r.startedAt + 1000000 * field (late.raw 0xA0004) 31 16 ≤ late.now)) = some { entry := 1, kind := 1 }
    ∧ late.col.drains.find? (fun (d : Nat × Nat) => decide (d.2 + 1000000 * field (late.raw 0xA0004) 15 0 ≤ late.now)) = some (5, 0) := by
  decide +kernel
theorem test_entry_timeout : (run (.entryTimeout 0) late).col.short = true ∧ (run (.entryTimeout 0) late).col.firstShort = 1 := by decide +kernel

/-- `stepping` with bucket 0 on two beats of a carrier region. -/
def gathering (e : Nat) : State := { stepping e .window with
  buckets := [(0, { base := dramBase, result := dramBase + 0x200, len := 512 })], regions := [carrier], stks := [(0, { f := { st := .on } })] }
theorem witness_Starts : (gathering 1).startable 0 1 = some 1 ∧ (gathering 1).effScale 0 ≤ 127 ∧ (gathering 2).startable 0 2 = some 2
    ∧ (gathering 3).startable 3 3 = some 3 ∧ ((gathering 3).ent 3).axes ≠ 0 ∧ (gathering 4).startable 3 3 = some 4 ∧ ((gathering 4).ent 4).axes = 0
    ∧ (gathering 2).col.runs = [] := by decide +kernel
theorem witness_StartMemory : (∀ i, i < 256 → i % 256 = 0 → (regionAt (gathering 1).regions (dramBase + 256 + i)).isSome = true
      ∧ (gathering 1).accRange 0 (dramBase + 256 + i) 256 = .ok) ∧ (gathering 2).accRange 0 0x1000 256 = .ok := by
  refine ⟨fun i h h2 => ?_, by decide +kernel⟩
  obtain rfl : i = 0 := by omega
  decide +kernel
theorem witness_StartScale : (gathering 1).scaleOk ((gathering 1).ent 1).bucket = true ∧ (∀ r, r ∈ (gathering 2).col.runs → r.entry = 2 → r.tag ≠ (gathering 2).tagNow) := by
  decide +kernel
/-- Module 0 starts the chain of chunk 1, which ends at module 1 (R330). -/
theorem test_rs_start : (run (.rsRunStart 0) (gathering 1)).rt.pkts.map (fun x => (x.p.addr, x.p.dst, x.p.len))
    = [(256, ⟨1, 0, 0⟩, 256)] := by decide +kernel

/-- Module `i` of `n` on X in a scalar run of 8 bytes, with 0x0F in its buffer and a packet of 0xF0 from module `j`. -/
def chained (i n j : Nat) : State :=
  let p : Packet := { kind := 8, vc := 3, len := 8, src := ⟨j, 0, 0⟩, dst := ⟨i, 0, 0⟩, srcCore := 0x7F, msgTag := 3, pktCount := 1
                      payload := 0xF0 :: zeros 7 }
  let s := stepping 4 .window
  { s with
    img := { s.img with coord := ⟨i, 0, 0⟩, shape := ⟨n, 1, 1⟩ }, mem := (0x1000, 0x0F) :: s.mem
    cores := [(0, { ready := true }), (48, { ready := true })], rt := { s.rt with ejq := [{ p := p }] }
    col := { next := [4, 4, 4, 4], runs := [{ seq := 3, entry := 3, kind := 3, op := 2, axes := 1, base := 0x1000, len := 8 }] } }
theorem witness_ScalarBeats : (((chained 1 2 0).scTake true).map fun x => (x.1.src, (x.2.runOf x.1).isSome, (x.2.core 48).ready)) = some (⟨0, 0, 0⟩, true, true)
    ∧ (((chained 1 3 2).scTake false).map fun x => (x.1.src, (x.2.runOf x.1).isSome, (x.2.core 0).ready)) = some (⟨2, 0, 0⟩, true, true)
    ∧ 0 < (chained 1 3 2).pos 0 := by decide +kernel
/-- The buffer of a scalar run reads and writes without an error. -/
theorem witness_ScalarBuffer : (((chained 1 2 0).scTake true).map fun x => match x.2.runOf x.1 with
      | some r => (x.2.bufRead 1 r 0).2.2 || (x.2.bufWrite 1 r 0 (combine 2 x.1.payload (x.2.bufRead 1 r 0).2.1).1).2 | none => true) = some false
    ∧ (((chained 1 3 2).scTake false).map fun x => match x.2.runOf x.1 with | some r => (x.2.bufWrite 0 r 0 x.1.payload).2 | none => true) = some false := by
  decide +kernel
theorem test_chain_end : (run .scChainBeat (chained 1 2 0)).rt.pkts.map (fun x => (x.p.dst, x.p.payload)) = [(⟨0, 0, 0⟩, 0xFF :: zeros 7)]
    ∧ (run .scChainBeat (chained 1 2 0)).byte 0x1000 = 0xFF := by decide +kernel
theorem test_chain_goes_on : (run .scChainBeat (chained 1 3 0)).rt.pkts.map (fun x => (x.p.dst, x.p.payload)) = [(⟨2, 0, 0⟩, 0xFF :: zeros 7)]
    ∧ (run .scChainBeat (chained 1 3 0)).byte 0x1000 = 0x0F := by decide +kernel

/-- `gathering` in its reduce-scatter with a chunk at byte `off` of the bucket from link 0. -/
def chunked (off : Nat) : State :=
  let p : Packet := { kind := 6, vc := 2, len := 256, src := ⟨1, 0, 0⟩, carrier := true, msgTag := 1, addr := BitVec.ofNat 41 off, words := [5]
                      payload := leBytes 4 5 ++ zeros 252 }
  let s := gathering 2
  { s with
    mem := (({ s with mem := writeKeys s.mem (2 ^ 44) [1] } : State).setMeta carrier dramBase 1 false).mem, rt := { s.rt with ejq := [{ p := p, inLink := some 0 }] }
    col := { next := [2, 2, 2, 2], runs := [{ entry := 1, kind := 1 }] } }
def mcasted (dst : Coord) : State :=
  let p : Packet := { kind := 7, vc := 2, len := 8, src := ⟨1, 0, 0⟩, dst := dst, mc := true, msgTag := 2, addr := 0x1100, payload := [1, 2, 3, 4, 5, 6, 7, 8] }
  let s := gathering 3
  { s with
    rt := { s.rt with ejq := [{ p := p, inLink := some 0 }] }
    col := { next := [3, 3, 3, 3], runs := [{ entry := 2, kind := 2, base := 0x1000, len := 256 }] } }
theorem witness_Chunks : ((chunked 0).ejTake 6 0).map (fun x => (x.1.addr, x.1.e, x.1.bucket)) = some (0, 0, 0)
    ∧ (match ((chunked 0).ejTake 6 0).map fun x => (chunked 0).classify x.1 0 with | some (.take r) => r.entry | _ => 9) = 1
    ∧ (regionAt (chunked 0).regions dramBase).isSome = true ∧ (chunked 0).accRange 0 dramBase 256 = .ok
    ∧ (chunked 0).accRange 0 (dramBase + 256) 256 = .ok ∧ (0 : Nat) / 256 = (chunked 0).pos 0 ∧ (256 : Nat) / 256 ≠ (chunked 256).pos 0
    ∧ (chunked 0).accRange 0 (dramBase + 0x200) 256 = .ok ∧ (regionAt (chunked 0).regions (dramBase + 0x200)).map (fun g => g.size % g.w) = some 0 := by
  decide +kernel
theorem witness_Mcast : ((mcasted ⟨0, 0, 0⟩).ejTake 7 0).map (fun x => (x.1.len, x.1.payload.length)) = some (8, 8)
    ∧ (match ((mcasted ⟨0, 0, 0⟩).ejTake 7 0).map fun x => (mcasted ⟨0, 0, 0⟩).classify x.1 0 with | some (.take r) => r.entry | _ => 9) = 2
    ∧ (mcasted ⟨0, 0, 0⟩).accRange 0 0x1100 8 = .ok ∧ (mcasted ⟨0, 0, 0⟩).oneRegion (0x1100, 8) = true
    ∧ (mcasted ⟨0, 0, 0⟩).touchesProg 0x1100 8 = false ∧ (mcasted ⟨1, 0, 0⟩).img.coord ≠ ⟨1, 0, 0⟩ := by decide +kernel
/-- The result is the local 1 and the chunk's 5 (R205); its word is their sum too (R206). -/
theorem test_chunk_ends : (run (.chunkRx 0) (chunked 0)).byte (dramBase + 0x200) = 6
    ∧ ((run (.chunkRx 0) (chunked 0)).beatMeta carrier (dramBase + 0x200)).1 = 6 := by decide +kernel
theorem test_mcast : (run (.mcastRx 0) (mcasted ⟨0, 0, 0⟩)).bytes 0x1100 8 = [1, 2, 3, 4, 5, 6, 7, 8]
    ∧ (run (.mcastRx 0) (mcasted ⟨0, 0, 0⟩)).rt.pkts = [] := by decide +kernel

/-! ## The router -/

/-- `base` as module 0 of four on X, with link 0 to module 1 active and the router running. -/
def routing : State :=
  { base with
    img := { loaded := true, coordValid := true, shape := ⟨4, 1, 1⟩, recOff := some 0 }, rt := { quiesced := false }
    links := [(0, { st := .active, peer := some { x := 1, y := 0, z := 0 } })] }
/-- `routing` with a move in slot 0 of core 0. -/
def sending (m : RunMove) : State := { routing.setSlot 0 0 (some m) with mem := [(0x100, 0xAA)] }
def getDesc : MoveDesc := { copyDesc with src := 2 ^ 56 + 0x100, dst := 0x208, target := 2, vc := 1 }
theorem witness_PacketInjection : ((sending { op := { d := putDesc } }).injectable 0).map (fun x => (x.1, x.2.1, x.2.2.2.kind, x.2.2.2.len)) = some (0, 0, kPutData, 8)
    ∧ ((sending { op := { d := getDesc } }).injectable 0).map (fun x => x.2.2.2.kind) = some kGetReq
    ∧ ((sending { op := { d := { putDesc with notify := 0x8005 } }, run := 1 }).injectable 0).map (fun x => x.2.2.2.kind) = some kNotify
    ∧ putDesc.kind = kCopy ∧ (sending {}).accRange 0 0x100 8 = .ok := by decide +kernel
theorem test_put_packet : (run (.packetInject 0) (sending { op := { d := putDesc } })).rt.pkts.map (fun x => (x.p.dst, x.p.addr, x.p.payload))
    = [(⟨1, 0, 0⟩, 0x208, 0xAA :: zeros 7)] := by decide +kernel

/-- `routing` with one packet in the router. -/
def routed (x : RPkt) (tbl : Map (BitVec 16) := []) : State := { routing with rt := { routing.rt with pkts := [x], tbl := tbl } }
def to1 (k : BitVec 4) (v : BitVec 2) : Packet := { kind := k, vc := v, dst := ⟨1, 0, 0⟩ }
theorem witness_PacketRoute : ({ resBad := true } : Packet).bad = true ∧ ({} : Packet).bad = false
    ∧ routing.ejects { p := { kind := kAck, vc := 3 } } = true ∧ ({ kind := kAck } : Packet).col = false
    ∧ routing.ejects { p := to1 0 0 } = false ∧ ((routed { p := to1 0 0 } [(1, 0)]).entryOf (routing.destNo ⟨1, 0, 0⟩)).getLsbD 0 = false
    ∧ routing.ejects { p := to1 kAck 3 } = false ∧ (to1 kAck 3).bulk = false ∧ routing.inShape ⟨1, 0, 0⟩ = true
    ∧ (routing.entryOf (routing.destNo ⟨1, 0, 0⟩)).getLsbD 0 = true ∧ routing.pos 0 ≠ 1
    ∧ false = !(dirOk (routing.img.wrap.getLsbD 0) (routing.axisLen 0) (routing.pos 0) 1 false) ∧ routing.productive (linkOf 0 false) ⟨1, 0, 0⟩ = true := by
  decide +kernel
theorem witness_RouteAgain : routing.awaitsShift { p := to1 0 0 } = false ∧ ({} : RPkt).via = none ∧ (routed { p := to1 0 0, out := some (0, to1 0 0) }).mayTake 0 (to1 0 0) = true
    ∧ routing.mayTake 1 (to1 0 0) = false ∧ (routing.link 0).st ≠ .shifting
    ∧ ((routed { p := to1 0 0, out := some (0, to1 0 0) }).turnOf 0).map (·.1) = some 0
    ∧ ((routed { p := to1 0 2, out := some (0, to1 0 2) }).turnOf 0).map (·.1) = some 2
    ∧ ((routed { p := to1 0 2, out := some (0, to1 0 2) }).turnOf 0).map (·.1) ≠ some 0 := by decide +kernel
theorem test_bad_is_dropped : (run (.packetRoute 0) (routed { p := { resBad := true } })).rt.pkts = []
    ∧ (run (.packetRoute 0) (routed { p := { resBad := true } })).raw 0x90074 = 1 := by decide +kernel
theorem test_unreachable : (run (.packetRoute 0) (routed { p := to1 0 0 } [(1, 0)])).rt.pkts.map (fun x => (x.p.kind, x.p.status)) = [(kNack, 4)] := by
  decide +kernel

theorem witness_PacketAdvance : (routed { p := to1 0 2, out := some (0, to1 0 2) }).vc3First 0 = false
    ∧ (routing.link 0).st = .active ∧ 260 ≤ (routing.link 0).credits 2 ∧ (to1 0 0).bulk = true ∧ (to1 0 0).flits + 130 ≤ (routing.link 0).credits 0
    ∧ ({ to1 0 0 with esc := true } : Packet).flits ≤ (routing.link 0).credits 0 ∧ (0 : Nat) % 2 = ({} : RPkt).half
    ∧ ({ cred := [100, 0, 0, 0] } : LinkSt).credits 0 < (to1 0 0).flits + 130 ∧ ({ cred := [0, 0, 0, 0] } : LinkSt).credits 3 < (to1 kAck 3).flits := by
  decide +kernel
theorem test_advance : ((run (.packetAdvance 0) (routed { p := to1 kAck 3, out := some (0, to1 kAck 3) })).link 0).txq.length = (to1 kAck 3).flits
    ∧ ((run (.packetAdvance 0) (routed { p := to1 kAck 3, out := some (0, to1 kAck 3) })).link 0).credits 3 = 2048 - (to1 kAck 3).flits := by decide +kernel

/-- `routing` with one packet at its target. -/
def arrived (p : Packet) : State := { sending {} with rt := { quiesced := false, ejq := [{ p := p, inLink := some 0 }] } }
def putAt (a : BitVec 41) : Packet := { kind := kPutData, src := ⟨1, 0, 0⟩, addr := a, len := 2, payload := [5, 6] }
theorem witness_Requests : (arrived (putAt 0x100)).heldByCommit 0x100 2 = false ∧ (arrived (putAt 0x100)).oneRegion (0x100, 2) = true
    ∧ (arrived (putAt 0x100)).accRange 0 0x100 2 = .ok ∧ (arrived (putAt 0x100)).touchesProg 0x100 2 = false
    ∧ (arrived (putAt 0x100)).closedReq 0x100 2 = false ∧ (arrived (putAt 0x190000000)).oneRegion (0x190000000, 2) = false
    ∧ (arrived (putAt 0x190000000)).heldByCommit 0x190000000 2 = false ∧ (arrived (putAt 0x10000)).oneRegion (0x10000, 2) = true
    ∧ (arrived (putAt 0x10000)).accRange 0 0x10000 2 = .ok ∧ (arrived (putAt 0x10000)).touchesProg 0x10000 2 = true
    ∧ (arrived (putAt 0x10000)).heldByCommit 0x10000 2 = false ∧ (arrived {}).pstate ≠ .rest
    ∧ field (5 : BitVec 16) 14 8 = 0 ∧ ((arrived {}).half (halfOf 0)).inReset = false := by decide +kernel
theorem test_put : (run .putDataRx (arrived (putAt 0x100))).bytes 0xFF 4 = [0, 5, 6, 0]
    ∧ (run .putDataRx (arrived (putAt 0x100))).rt.pkts.map (fun x => (x.p.kind, x.p.dst, x.p.status)) = [(kAck, ⟨1, 0, 0⟩, 0)] := by decide +kernel
theorem test_put_to_program : (run .putDataRx (arrived (putAt 0x10000))).rt.pkts.map (fun x => (x.p.kind, x.p.status)) = [(kNack, 2)] := by decide +kernel
theorem test_notify : mapGet 0 ((run .notifyRx (arrived { kind := kNotify, notify := 5 })).core 0).rc 5 = 1 := by decide +kernel

/-- A GET of core 0 whose one packet is out, and an answer to it. -/
def asking (m : Msg) (p : Packet) (d : MoveDesc := getDesc) : State :=
  { sending { op := { d := d }, run := 1, msgs := [m] } with rt := { quiesced := false, ejq := [{ p := p, inLink := some 0 }] } }
theorem witness_Answers : ((asking { count := 1 } { kind := kGetResp, payload := [7] }).msgOf { kind := kGetResp, payload := [7] }).map (fun x => (x.1, x.2.1))
      = some (0, 0)
    ∧ (asking { count := 1 } { kind := kGetResp, payload := [7] }).older { kind := kGetResp, payload := [7] } = false
    ∧ ({} : RPkt).at_ ≤ ({} : Msg).sentAt + (asking {} {}).msgLimit ∧ (asking {} {}).reaches { inLink := some 0 } = true ∧ getDesc.get = true ∧ putDesc.get = false ∧ getDesc.kind = kCopy
    ∧ (asking {} {}).heldByCommit getDesc.dstSpan.1 getDesc.dstSpan.2 = false ∧ (asking {} {}).accRange 0 0x208 1 = .ok
    ∧ (asking {} {}).closedReq 0x208 1 = false := by decide +kernel
theorem test_get_response : (run .getRespRx (asking { count := 1 } { kind := kGetResp, payload := [7] })).byte 0x208 = 7
    ∧ (((run .getRespRx (asking { count := 1 } { kind := kGetResp, payload := [7] })).core 0).slot 0).map (·.done) = some true := by decide +kernel
theorem test_busy_get : (((run .nackRx (asking { count := 1 } { kind := kNack, status := 5 })).core 0).slot 0).map (fun m => (m.err, m.done)) = some (false, false)
    := by decide +kernel

/-- A message of core 0 that began at 0, at a time past every timer. -/
def lateMsg : State := { asking { count := 1, retry := [(0, 5)] } {} with now := 10000000000 }
theorem witness_Timers : (lateMsg.core 0).slot 0 = some { op := { d := getDesc }, run := 1, msgs := [{ count := 1, retry := [(0, 5)] }] }
    ∧ 0 + 1000000 * field (lateMsg.raw 0x90030) 27 16 < lateMsg.now ∧ lateMsg.inTime 0 0 { count := 1, retry := [(0, 5)] } = false
    ∧ ({ rate := 100 } : Limiter).inc = none ∧ ({ lastDec := some 7 } : Limiter).lastDec = some 7 ∧ lateMsg.moveRuns 0 = true ∧ 5 ≤ lateMsg.now ∧ getDesc.vc ≠ 0
    ∧ (mapGet {} ({ lateMsg.rt with lim := [(0, { rate := 100 })] } : RtSt).lim (limKey 0 0) : Limiter).rate = 100
    ∧ 0 + 1000 * field (lateMsg.raw 0x90034) 7 0 ≤ lateMsg.now := by decide +kernel
theorem test_msg_timeout : (((run (.msgTimeout 0 0) lateMsg).core 0).slot 0).map (fun m => (m.err, m.done)) = some (true, true) := by decide +kernel
theorem test_get_retry : (run (.getRetryTimer 0 0) lateMsg).rt.pkts.map (fun x => (x.p.kind, x.p.dst)) = [(kGetReq, ⟨1, 0, 0⟩)] := by decide +kernel

/-! ## Links -/

/-- A NOTIFY as it travels. -/
def note5 : Packet := { kind := kNotify, vc := 3, dst := ⟨0, 0, 0⟩, src := ⟨1, 0, 0⟩, notify := 5 }
def empty (g : Group) : Group := { g with flits := List.replicate 8 idleFlit }
def noteGroup : Group :=
  { credit := [0, 0, 0, 1], flits := note5.encode.map (fun b => ⟨.data, b⟩) ++ List.replicate (8 - note5.encode.length) idleFlit }
theorem witness_GroupWire : noteGroup.flits.length = 8 ∧ noteGroup.credit.length = 4 ∧ (∀ c, c ∈ noteGroup.credit → c < 256) := by decide +kernel
/-- `routing` with another link 0. -/
def linked (k : LinkSt) : State := { routing with links := [(0, k)] }
def kept (n : Nat) : SentGroup := ⟨BitVec.ofNat 12 n, [], [0, 0, 0, 0], false⟩

theorem witness_GroupRx : (routing.link 0).st.carries = true ∧ noteGroup.seq = (routing.link 0).rxSeq + 1
    ∧ (5 : BitVec 12) ≠ (routing.link 0).rxSeq + 1 ∧ 2048 ≤ ((routing.link 0).rxSeq - 5).toNat
    ∧ (0xFFF : BitVec 12) ≠ (routing.link 0).rxSeq + 1 ∧ ((routing.link 0).rxSeq - 0xFFF).toNat < 2048
    ∧ (match ((noteGroup.flits.take 8).filter fun f => decide (f.kind = .data)).map (·.bits) with
        | [] => false | f :: r => flitsNeeded f == (f :: r).length) = true := by decide +kernel
theorem witness_AckNak : (linked { st := .active, replay := [kept 1] ++ kept 2 :: [kept 3] }).link 0
      = { st := .active, replay := [kept 1] ++ kept 2 :: [kept 3] }
    ∧ (∀ z, z ∈ [kept 1] → z.seq ≠ 2) ∧ (0 : Nat) < [kept 3].length := by
  refine ⟨by decide, ?_, by decide⟩
  simp [kept]
theorem test_packet_over_link : ((linked { st := .active, cred := [0, 0, 0, 7] }).acceptGroup 0 noteGroup).rt.pkts
    = [{ p := note5, half := 0, inLink := some 0 }]
    ∧ (((linked { st := .active, cred := [0, 0, 0, 7] }).acceptGroup 0 noteGroup).link 0).credits 3 = 8 := by decide +kernel
theorem test_nak : (((linked { st := .active, replay := [kept 1, kept 2, kept 3] }).takeNak 0 2).link 0).resend = 1 := by decide +kernel
/-- Of what a quarantined link brings only MGMT enters the router (R270). -/
theorem test_quarantine : ((linked { st := .quarantine }).acceptGroup 0 noteGroup).rt.pkts = [] := by decide +kernel
/-- One wrong bit of the control word makes the CRC bad; the group as it is sent has a good one and says what it said. -/
theorem witness_GroupCrc : ({ noteGroup.wire with ctl := noteGroup.wire.ctl ^^^ 1 } : GroupWire).crcOk = false ∧ noteGroup.wire.crcOk = true
    ∧ noteGroup.wire.group = noteGroup := by
  refine ⟨?_, noteGroup.wire_crcOk, ?_⟩
  · have e := noteGroup.wire_crcOk
    have h : (noteGroup.wire.ctl ^^^ 1).extractLsb' 32 96 = noteGroup.wire.ctl.extractLsb' 32 96 := by
      ext i hi; simp
    simp only [GroupWire.crcOk, GroupWire.hi, beq_iff_eq] at e
    simp only [GroupWire.crcOk, GroupWire.hi, h, beq_eq_false_iff_ne, ← e]
    intro z
    have w := congrArg (fun x : BitVec 32 => x.getLsbD 0) z
    simp at w
  · simp only [GroupWire.group, Group.wire_hi]; decide +kernel
/-- The bits of the control word (R261), written out: SEQ 5, ACK 2, NAK, data flits 0 and 7, credits 1 to 4, UPSHIFT, LOWRATE_OK. -/
def fullGroup : Group :=
  { seq := 5, ack := 2, ackKind := .nak, credit := [1, 2, 3, 4], upshift := true, lowrateOk := true
    flits := [⟨.data, 0⟩] ++ List.replicate 6 idleFlit ++ [⟨.message, 0⟩] }
theorem test_control_word : fullGroup.ctlHi.toNat
    = 2 ^ 75 + 2 ^ 74 + 4 * 2 ^ 66 + 3 * 2 ^ 58 + 2 * 2 ^ 50 + 2 ^ 42 + 2 * 2 ^ 40 + 2 ^ 26 + 2 * 2 ^ 24 + 2 * 2 ^ 12 + 5 := by decide +kernel
/-- The check value of this CRC-32: 0xCBF43926 for the text 123456789. -/
theorem test_crc32 : crc32 (ascii "123456789") = 0xCBF43926 := by decide +kernel

theorem witness_GroupSend : (linked { st := .active, txq := [{ f := idleFlit }] }).link 0 = { st := .active, txq := [{ f := idleFlit }] }
    ∧ ({ st := .active, txq := [{ f := idleFlit }] } : LinkSt).resend = 0 ∧ ({} : LinkSt).rate ≠ 2 ∧ (∀ c, c ∈ ({} : LinkSt).owe → c ≤ 255)
    ∧ 1 ≤ ({ resend := 1, replay := [kept 1] } : LinkSt).resend ∧ ({ rate := 2, txq := [{ f := idleFlit }] } : LinkSt).txq ≠ []
    ∧ ({} : LinkSt).ackAt + 250 ≤ 250 := by decide +kernel
theorem test_send : ((run (.linkGroupSend 0) (linked { st := .active, active := 0x1FE, txq := note5.txFlits {} })).link 0).txLanes = [1, 2, 3, 4, 5, 6, 7, 8]
    ∧ ((run (.linkGroupSend 0) (linked { st := .active, txq := note5.txFlits {}, owe := [0, 3, 0, 0] })).link 0).replay.length = 1 := by decide +kernel

theorem witness_Lanes : popcount 16 ({ failed := 0x7F ||| BitVec.ofNat 16 (2 ^ 7), good := 0xFF } : LinkSt).lanesOk.toNat < 8
    ∧ 8 ≤ popcount 16 ({ failed := 1 } : LinkSt).lanesOk.toNat ∧ ({ ver := 0x11, active := 0xFFFF } : LinkSt).active.getLsbD 0 = true
    ∧ 0x11 ≤ ({ ver := 0x11 } : LinkSt).ver ∧ ({ ver := 0x10 } : LinkSt).ver < 0x11
    ∧ ({ linked { st := .active } with regs := [(aLnk 0 0x020, 0x101)] } : State).wantsLow 0 = true
    ∧ ({ st := .shifting, shift := 2, upOwn := true } : LinkSt).upOwn = true ∧ ({ st := .shifting } : LinkSt).reident = false
    ∧ ({} : LinkSt).dataAt + field (({ base with regs := [(aLnk 0 0x020, 0x101)] } : State).raw (aLnk 0 0x020)) 7 0 * 100000 ≤ 100000 := by decide +kernel
theorem test_lane_fail : ((run (.laneFail 0 3) (linked { st := .active, ver := 0x11, active := 0xFFFF })).link 0).st = .shifting
    ∧ ((run (.laneFail 0 3) (linked { st := .active, ver := 0x10, active := 0xFFFF })).link 0).st = .down := by decide +kernel
theorem test_shift_complete : ((run (.shiftComplete 0 true) (linked { st := .shifting, shift := 1, failed := 8 })).link 0).active = 0x1F7 := by
  decide +kernel

theorem witness_Training : 8 ≤ popcount 16 (0x00FF : BitVec 16).toNat ∧ ({} : LinkSt).retryAt = none ∧ ({} : LinkSt).since + 100000000 ≤ 100000000
    ∧ TrainFail.noLock.code = ({ lastFail := 2 } : LinkSt).lastFail ∧ ({} : LinkSt).since + 1000000 ≤ 1000000 ∧ ({} : LinkSt).identAt ≤ 0
    ∧ ({ mine := some 0 } : LinkSt).mine = some 0 ∧ ({} : LinkSt).replay = [] ∧ 0x13 ≤ ({ ver := 0x13 } : LinkSt).ver := by decide +kernel
theorem test_train_lock : ((run (.trainLock 0 0x00FF) (linked { st := .training })).link 0).st = .ident
    ∧ ((run (.trainLock 0 0x007F) (linked { st := .training })).link 0).st = .training := by decide +kernel
theorem test_park : ((run (.parkDrained 0) (linked { st := .parking })).link 0).st = .parked := by decide +kernel

/-- The IDENT of module 1 of `routing` on its MINUS X port. -/
def peer1 : Ident := { port := 1, coordValid := true, x := 1, y := 0, z := 0 }
theorem witness_CheckIdent : routing.checkIdent 0 peer1 = 0 ∧ some peer1.coord = routing.neighbour 0 1
    ∧ (routing.myIdent 0).coordValid = true ∧ (routing.myIdent 0).jobTag = peer1.jobTag ∧ ({ vmax := 0x23, vmin := 0x20 } : Ident).vmax.toNat / 16 ≠ 1
    ∧ (routing.link 0).theirs = none := by decide +kernel
/-- A peer without a coordinate has reason 1, one of another job 4, a wrong port 5, a wrong neighbour 6, another major version 2 (R269). -/
theorem test_reasons : routing.checkIdent 0 { peer1 with coordValid := false, jobTag := 9 } = 1 ∧ routing.checkIdent 0 { peer1 with jobTag := 9, port := 2 } = 4
    ∧ routing.checkIdent 0 { peer1 with port := 0, x := 3 } = 5 ∧ routing.checkIdent 0 { peer1 with x := 3, minv := 0x14 } = 6
    ∧ routing.checkIdent 0 { peer1 with minv := 0x14 } = 3 ∧ routing.checkIdent 0 { peer1 with vmin := 0x20, vmax := 0x23, strapFault := true } = 2 := by
  decide +kernel
theorem witness_Verdict : (linked { st := .ident, mine := some 0, ver := 0x13 }).link 0 = { st := .ident, mine := some 0, ver := 0x13 }
    ∧ 8 ≤ popcount 16 ({ good := 0xFF } : LinkSt).lanesOk.toNat ∧ popcount 16 ({ good := 0xFF } : LinkSt).lanesOk.toNat < 16
    ∧ popcount 16 ({} : LinkSt).lanesOk.toNat = 16 := by decide +kernel
theorem test_verdict : ((run (.verdictRx 0 0 0x13) (linked { st := .ident, mine := some 0, ver := 0x13 })).link 0).st = .active
    ∧ ((run (.verdictRx 0 4 0x13) (linked { st := .ident, mine := some 0, ver := 0x13 })).link 0).qreason = 8 := by decide +kernel

/-! ## Ownership and commands -/

/-- `base` whose owner record or halves are others. -/
def ownedBy (o : OwnRec) (held : Bool := false) : State :=
  { base with ctl := { base.ctl with own := o, mirror := o }, halves := [(0, { lead := true, up := true, held := held }), (1, { up := true, held := held })] }
theorem atFront_ownedBy (o : OwnRec) (b : Bool) (op : Nat) (args : List Byte) :
    AtFront (asked (ownedBy o b) op args) hd0 op args (cmd0 op args) [] := ⟨rfl, rfl, rfl, rfl, rfl, rfl, rfl, rfl⟩

theorem witness_CommandsAreChecked : AtFront (asked (ownedBy own0 true) opRenew []) hd0 opRenew [] (cmd0 opRenew []) []
    ∧ (asked (ownedBy own0 true) opRenew []).isHeld = true ∧ (asked (ownedBy {}) opRenew []).isHeld = false
    ∧ (asked (ownedBy {}) opRenew []).ctl.own.owned = false ∧ (asked (ownedBy { own0 with epoch := 8 }) opRenew []).ctl.own.epoch ≠ 7
    ∧ (asked (ownedBy { own0 with epoch := 8 }) opRenew []).ctl.own.sess = some 0
    ∧ ({ base with ctl := { base.ctl with pend := some { new_ := {}, at_ := 0 } } } : State).ctl.pend ≠ none
    ∧ (base.sess 0).st = .open_ ∧ (base.sess 0).id = (cmd0 opRenew []).sid ∧ (base.sess 0).cout.toNat ≠ 2 ^ 64 - 1
    ∧ (base.sess 3).st ≠ .open_ := ⟨atFront_ownedBy _ _ _ _, by decide⟩
theorem test_held_first : (run (.renew hd0) (asked (ownedBy {} true) opRenew [])).ctl.out.getLast?
    = some (.resp sess0.peer 2 ⟨opRenew, 1, 5, 0, []⟩) := by decide +kernel
theorem test_stale_epoch : (run (.renew hd0) (asked (ownedBy { own0 with epoch := 8 }) opRenew [])).ctl.out.getLast?
    = some (.resp sess0.peer 2 ⟨opRenew, 1, 4, 8, []⟩) := by decide +kernel

/-- `twoSess` with session 0's command. -/
theorem executes_twoSess (op : Nat) (args : List Byte) : Executes (asked twoSess op args) hd0 op args (cmd0 op args) [] :=
  executes_asked twoSess op args (by decide)
/-- A record on its way to the follower for session 0's command. -/
def mirroring (o : OwnRec) : State := { base with ctl := { base.ctl with pend := some { new_ := o, at_ := 0, cmd := some (cmd0 opClaim []) } } }
theorem witness_OwnerRecord : (base.ctl.own.key = some (base.sess 0).key) ∧ (ownedBy { own0 with key := some 9 }).ctl.own.key ≠ some (base.sess 0).key
    ∧ (ownedBy {}).isHeld = false ∧ base.ctl.own.epoch ≠ 0xFFFFFFFF ∧ twoSess.slotOf 0x201 = some 1
    ∧ (base.leadRuns = true ∧ base.ctl.pend = none ∧ base.ctl.cmdq = [])
    ∧ base.ctl.own.deadline ≤ ({ base with now := 1000000000 } : State).now ∧ (mirroring own0).mirrorOk = true ∧ (mirroring own0).isHeld = false
    ∧ 0 + 100000 ≤ ({ mirroring own0 with now := 100000 } : State).now := by decide
/-- A change of the record that no command asked for: the session it names has ended. -/
def unasked : State := { base with ctl := { base.ctl with pend := some { new_ := { own0 with sess := none, sid := 0 }, at_ := 0 } } }
theorem witness_MirrorUnasked : (unasked.ctl.pend.map (·.cmd)) = some none ∧ (unasked.ctl.pend.map (·.lapse)) = some false ∧ unasked.mirrorOk = true
    ∧ ((mirroring own0).ctl.pend.map (·.target)) = some none := by decide
theorem test_mirror_unasked : (run .mirrorAck unasked).ctl.own.sess = none ∧ (run .mirrorAck unasked).ctl.own.epoch = 7 := by decide +kernel
theorem witness_OwnerCommands : Executes (asked base opRenew []) hd0 opRenew [] (cmd0 opRenew []) []
    ∧ Executes (asked twoSess opHandover (beBytes 8 0x201)) hd0 opHandover (beBytes 8 0x201) (cmd0 opHandover (beBytes 8 0x201)) []
    ∧ Executes (asked base opRelease []) hd0 opRelease [] (cmd0 opRelease []) []
    ∧ AtFront (asked base opClaim (beBytes 2 5 ++ zeros 2)) hd0 opClaim (beBytes 2 5 ++ zeros 2) (cmd0 opClaim (beBytes 2 5 ++ zeros 2)) []
    ∧ AtFront (asked base opRecover (argsRecover 0 [])) hd0 opRecover (argsRecover 0 []) (cmd0 opRecover (argsRecover 0 [])) [] :=
  ⟨executes_base _ _, executes_twoSess _ _, executes_base _ _, (executes_base _ _).1, (executes_base _ _).1⟩
theorem test_claim : ((run (.claim hd0 5) (asked base opClaim (beBytes 2 5 ++ zeros 2))).ctl.pend.map fun p => (p.new_.epoch, p.new_.deadline, p.data))
    = some (8, 5000000000, [0, 0, 0x13, 0x88]) := by decide +kernel
theorem test_mirror : (run .mirrorAck (mirroring { own0 with epoch := 8 })).ctl.own.epoch = 8
    ∧ (run .mirrorTimeout { mirroring { own0 with epoch := 8 } with now := 100000 }).isHeld = true := by decide +kernel
theorem test_lease : (run .leaseExpire { base with now := 1000000000 }).ctl.pend.map (fun p => p.new_.owned) = some false
    ∧ (run .leaseExpire { base with now := 999999999 }).ctl.pend = none := by decide +kernel

/-- `s` with a part of session 0's command on its way to the follower. -/
def passing (s : State) (op : Nat) (p : Fwd) : State := s.modCtl fun k => { k with fwd := some (cmd0 op [], p) }
/-- `base` with a router in another condition. -/
def fabric (q st : Bool) (l : Map LinkSt := []) : State := { base with rt := { quiesced := q, staged := st }, links := l }
theorem executes_fabric (q st : Bool) (l : Map LinkSt) (op : Nat) (args : List Byte) :
    Executes (asked (fabric q st l) op args) hd0 op args (cmd0 op args) [] := executes_asked _ op args ⟨rfl, rfl, rfl, rfl, rfl, rfl, rfl⟩
theorem witness_Fabric : Executes (asked (fabric true true []) opResume []) hd0 opResume [] (cmd0 opResume []) []
    ∧ (fabric true true []).drained = true ∧ (fabric true true [(0, { st := .active, replay := [kept 0] })]).drained = false
    ∧ (5 : Byte) &&& 0x2A = 0 ∧ (fabric true false [(0, { st := .active })]).bench = false ∧ (fabric false false []).rt.quiesced = false
    ∧ ((fabric true false [(0, { st := .active })]).link 0).st ≠ .parked ∧ ((fabric true false []).link 0).st = .off
    ∧ (∀ l : LinkId, ((fabric true false []).link l).st ≠ .parking) ∧ (0 : Byte) &&& 7 = 0 ∧ (1 : Byte) &&& 7 ≠ 0 ∧ (fabric true false []).farStatus = 0
    ∧ ({ fabric true false [] with bypass := 6 } : State).bypass.getLsbD 0 = false ∧ (fabric true false []).keptOff 0 = false :=
  ⟨executes_fabric _ _ _ _ _, by decide +kernel⟩
theorem test_park_command : ((run (.linkPark hd0 1) (asked (fabric true false [(0, { st := .active })]) opLinkPark [1, 0, 0, 0])).link 0).st = .parking := by
  decide +kernel

/-- `base` with idle threads and the step in a phase. -/
def startable0 (p : Phase) : State := { (base.modThread 0 0 fun _ => {}) with step := { phase := p } }
theorem executes_start (p : Phase) (op : Nat) (args : List Byte) : Executes (asked (startable0 p) op args) hd0 op args (cmd0 op args) [] :=
  executes_asked _ op args ⟨rfl, rfl, rfl, rfl, rfl, rfl, rfl⟩
theorem witness_StartHalt : Executes (asked (startable0 .idle) opStart (argsStart 1 3 0x10000 9)) hd0 opStart (argsStart 1 3 0x10000 9)
      (cmd0 opStart (argsStart 1 3 0x10000 9)) []
    ∧ (0x10000 : Word).toNat % 8 = 0 ∧ (1 : BitVec 96).toNat < 2 ^ 48 ∧ (startable0 .idle).startOk ⟨false, 1, 3, 0x10000, 9⟩ = true
    ∧ (startable0 .idle).startOk ⟨false, 2, 3, 0x10000, 9⟩ = false ∧ (startable0 .committing).startOk ⟨false, 1, 3, 0x10000, 9⟩ = true
    ∧ Phase.committing.defers = true ∧ Phase.idle.defers = false ∧ (base.core 0).ready = true ∧ (base.thread 0 0).st = .run
    ∧ base.bridge.dataUp = true ∧ (base.half 1).inReset = false ∧ (base.half 1).up = true ∧ (7 : Word) = base.ctl.mirror.epoch :=
  ⟨executes_start _ _ _, by decide +kernel⟩
theorem test_start_argument : ((run (.start hd0 1 2 0x10008 9) (asked (startable0 .idle) opStart (argsStart 1 2 0x10008 9))).thread 0 1).sreg 1 = 9
    ∧ ((run (.start hd0 1 2 0x10008 9) (asked (startable0 .idle) opStart (argsStart 1 2 0x10008 9))).thread 0 1).pc = 0x10008 := by decide +kernel

/-- Each kind of forwarded part waits, and the follower carries it out (R16, R360). -/
theorem witness_Forwarded : (∀ p, p ∈ [Fwd.park 2, .quiesce, .resume, .start ⟨false, BitVec.ofNat 96 (2 ^ 48), 1, 0x10000, 9⟩] →
      (passing base opQuiesce p).ctl.fwd = some (cmd0 opQuiesce [], p)) ∧ (cmd0 opQuiesce []).epoch = base.ctl.mirror.epoch ∧ base.isHeld = false
    ∧ (fabric false false []).rt.quiesced = false ∧ (fabric true true []).rt.staged = true ∧ (fabric true true []).drained = true
    ∧ (fabric true true [(0, { st := .active, replay := [kept 0] })]).drained = false
    ∧ (fabric true true []).rt.undrainedAt ≠ some (fabric true true []).now
    ∧ ({ startable0 .idle with cores := [(48, { ready := true, progBase := 1, progSize := 1 })] } : State).startOk
        ⟨false, BitVec.ofNat 96 (2 ^ 48), 1, 0x10000, 9⟩ = true
    ∧ (∀ l : LinkId, base.recovers l = false) := by decide +kernel
theorem test_forwarded : (run .forwardedCommand (passing (fabric false false []) opQuiesce .quiesce)).rt.quiesced = true
    ∧ (run .forwardedCommand (passing { fabric false false [] with bridge := {} } opQuiesce .quiesce)).rt.quiesced = false
    ∧ ((run .forwardedCommand (passing (fabric true false [(1, { st := .active })]) opLinkPark (.park 2))).link 1).st = .parking := by decide +kernel

theorem witness_Resets : Executes (asked base opReset (argsReset 0 0)) hd0 opReset (argsReset 0 0) (cmd0 opReset (argsReset 0 0)) []
    ∧ base.pstate = .run ∧ base.pwr.run.st = .on ∧ base.ctl.load = none ∧ (base.half 0).inReset = false ∧ (routing.link 0).st = .active
    ∧ routing.pstate = .run ∧ (({ up := false, inReset := true } : HalfSt).inReset = true) := ⟨executes_base _ _, by decide⟩
theorem witness_ResetLink : Executes (asked routing opReset (argsReset 2 0)) hd0 opReset (argsReset 2 0) (cmd0 opReset (argsReset 2 0)) [] :=
  executes_asked _ _ _ ⟨rfl, rfl, rfl, rfl, rfl, rfl, rfl⟩
theorem test_warm_reset : (run (.resetModuleWarm hd0 0) (asked base opReset (argsReset 3 0))).pwr.cause = 2
    ∧ (run (.resetModuleWarm hd0 0) (asked base opReset (argsReset 3 0))).ctl.own = { epoch := 7 } := by decide +kernel
theorem test_core_reset : ((run (.resetCore hd0 0) (asked base opReset (argsReset 0 0))).core 0).ready = false
    ∧ (run (.resetCore hd0 0) (asked base opReset (argsReset 0 0))).step.rstLatch = true := by decide +kernel

/-! ## Power, clocks, firmware, registers and images under their commands -/

/-- `base` with the Run function in a state. -/
def running_ (f : FState) : State := { (base.modThread 0 0 fun _ => {}) with pwr := { run := { st := f } } }
/-- `base` with other clocks. -/
def clocked (k : ClkSt) : State := { base with clk := k }
theorem executes_clocked (k : ClkSt) (op : Nat) (args : List Byte) : Executes (asked (clocked k) op args) hd0 op args (cmd0 op args) [] :=
  executes_asked _ op args ⟨rfl, rfl, rfl, rfl, rfl, rfl, rfl⟩
theorem executes_running (f : FState) (op : Nat) (args : List Byte) : Executes (asked (running_ f) op args) hd0 op args (cmd0 op args) [] :=
  executes_asked _ op args ⟨rfl, rfl, rfl, rfl, rfl, rfl, rfl⟩
theorem witness_PowerCommands : Executes (asked (running_ .off) opSetPower (beBytes 1 0 ++ zeros 3)) hd0 opSetPower (beBytes 1 0 ++ zeros 3)
      (cmd0 opSetPower (beBytes 1 0 ++ zeros 3)) []
    ∧ (running_ .on).pwr.target = 0 ∧ (running_ .on).mayLeave 1 = true ∧ (running_ .on).mayLeave 2 = true
    ∧ base.mayLeave 1 = false ∧ base.mayLeave 2 = false ∧ base.pwr.run.st = .on := ⟨executes_running _ _ _, by decide +kernel⟩
theorem witness_ClockCommands : Executes (asked (clocked { xtalOk := true, slewing := true }) opClock [0, 0, 0, 0]) hd0 opClock [0, 0, 0, 0] (cmd0 opClock [0, 0, 0, 0]) []
    ∧ (clocked { xtalOk := true, slewing := true }).srcPresent 0 0 = true ∧ ({ xtalOk := true } : ClkSt).inUse 0 0 = false
    ∧ (clocked {}).srcPresent 0 0 = false := ⟨executes_clocked _ _ _, by decide +kernel⟩
theorem test_idle : (run .forwardedCommand (run (.setPowerStateIdle hd0) (asked (running_ .on) opSetPower (beBytes 1 1 ++ zeros 3)))).pwr.run.st
    = .stopping := by decide +kernel
theorem witness_PowerForwarded : (passing (running_ .on) opSetPower (.power 1)).ctl.fwd = some (cmd0 opSetPower [], .power 1)
    ∧ base.bridge.dataUp = true ∧ (base.half 1).inReset = false ∧ (base.half 1).up = true ∧ (running_ .off).pwr.run.st = .off
    ∧ (running_ .stopping).pwr.target = 0 ∧ (running_ .on).farStatus = 0 ∧ (cmd0 opSetPower []).epoch = (running_ .on).ctl.mirror.epoch
    ∧ (running_ .on).isHeld = false := by decide +kernel
theorem test_clock_absent : (run (.clockSelect hd0 0 0 1) (asked (clocked {}) opClock [0, 0, 1, 0])).ctl.out.getLast?
    = some (.resp sess0.peer 2 ⟨opClock, 1, 2, 7, []⟩) := by decide +kernel

theorem witness_ClockEvents : (clocked {}).boot.released = true ∧ ({} : ClkSt).boot = true ∧ (clocked {}).boot.at_ + 50000000 ≤ 50000000
    ∧ ({ input := 1, xtalOk := true, sel := { fallback := true } } : ClkSt).input < 3 ∧ ({ slewing := true } : ClkSt).deferred = none
    ∧ base.gateOn 3 0 = true ∧ gateLeaf 0 = none ∧ base.gateOn 3 20 = true ∧ gateLeaf 20 = some (0, 1) ∧ (base.core 0).ready = true
    ∧ (clocked {}).domAbsent (field ((clocked {}).raw 0x30020) 24 20) = false
    ∧ ({ clocked {} with regs := [(0x30020, 0)] } : State).domAbsent (field (({ clocked {} with regs := [(0x30020, 0)] } : State).raw 0x30020) 24 20) = true
    ∧ ({ input := 1, boot := false } : ClkSt).input ≠ 0 := by decide +kernel
theorem test_fallback : (run .sourceFail (clocked { input := 1, boot := false, xtalOk := true, sel := { source := 1, fallback := true } })).clk.input = 0
    ∧ (run .sourceFail (clocked { input := 1, boot := false, xtalOk := true, sel := { source := 1 } })).clk.refLost = true := by decide +kernel
theorem test_branch_loss : ((run (.branchClockLoss (.gate 20)) base).core 0).faultState = true := by decide +kernel
theorem witness_DomainLoss : domDiv 6 ≠ 0 ∧ (clocked {}).boot.released = true := by decide +kernel
/-- The meter of R414's worked example: CORE0 against TIME over 1 000 000 cycles. -/
def metered : State := { clocked { fm := true, mult := 228, fmSteady := true, boot := false, xtalOk := true } with regs := [(0x30020, BitVec.ofNat 32 (5 * 2 ^ 25 + 17 * 2 ^ 20 + 1000000))] }
theorem test_meter : (run (.fmDone 0) metered).clk.fmCount = 1900000 ∧ (run (.fmDone 1) metered).clk.fmCount = 1900000 := by decide +kernel
theorem witness_Meter : metered.clk.fm = true ∧ metered.clk.fmSteady = true ∧ metered.clk.ratio 5 = some (228, 3) ∧ metered.clk.ratio 17 = some (40, 1)
    ∧ metered.clk.ratio 14 = none ∧ metered.domAbsent 17 = false ∧ metered.domAbsent 5 = false ∧ metered.domAbsent 20 = true ∧ ({ clocked {} with now := 1000000 } : State).clk.fmAt + 1000000 ≤ 1000000
    ∧ ({} : ClkSt).refLost = false ∧ ({ refLost := true } : ClkSt).refLost = true := by decide +kernel

/-- A firmware package of 576 bytes with SVNs 2 and 3. -/
def pkgHead : List Byte :=
  leBytes 4 0x544C4657 ++ [1, 0, 0, 0] ++ leBytes 4 576 ++ [0, 0, 2, 3] ++ leBytes 4 0x100 ++ leBytes 4 64 ++ leBytes 4 0x140 ++ leBytes 4 64
def package : List Byte := pkgHead ++ digBytes (Config.sha384 (zeros 64)) ++ digBytes (Config.sha384 (zeros 64)) ++ zeros 448
/-- `base` that has received it. -/
def received (m : Nat) : State := { base with sec := { fuseM := m, fwu := { st := 1, total := 576, data := package, kind := 1, sess := some (0, 0x100) } } }
theorem executes_received (m op : Nat) (args : List Byte) : Executes (asked (received m) op args) hd0 op args (cmd0 op args) [] :=
  executes_asked _ op args ⟨rfl, rfl, rfl, rfl, rfl, rfl, rfl⟩
theorem witness_Firmware : Executes (asked (received 0) opFwUpdate (argsFw 2 0 [])) hd0 opFwUpdate (argsFw 2 0 []) (cmd0 opFwUpdate (argsFw 2 0 [])) []
    ∧ Executes (asked base opFwUpdate (argsFw 0 576 [])) hd0 opFwUpdate (argsFw 0 576 []) (cmd0 opFwUpdate (argsFw 0 576 [])) []
    ∧ base.sec.fwu.st = 0 ∧ (received 0).sec.fwu.total ≤ (received 0).sec.fwu.data.length ∧ pkgOk package = true
    ∧ leAt package 4 1 = 1 ∧ (received 0).sec.fuseM ≤ leAt package 14 1 ∧ (received 0).sec.fuseC ≤ leAt package 15 1
    ∧ leAt package 14 1 < (received 3).sec.fuseM ∧ (cmd0 0 []).slot = 0 ∧ (cmd0 0 []).sid = 0x100
    ∧ ({ base with debugOn := true } : State).sec.dbgUntil ≤ base.now :=
  ⟨executes_received _ _ _, executes_base _ _, by decide +kernel⟩
theorem witness_Digests : digestsOk package = true := by
  have h : pkgHead.length = 0x20 := by decide
  have p : pkgPart package 0 = (0x100, 64) ∧ pkgPart package 1 = (0x140, 64) := by decide +kernel
  have c : slice package 0x100 64 = zeros 64 ∧ slice package 0x140 64 = zeros 64 := by decide +kernel
  have a : slice package 0x20 48 = digBytes (Config.sha384 (zeros 64)) :=
    slice_mid' (a := pkgHead) (c := digBytes (Config.sha384 (zeros 64)) ++ zeros 448) (by simp [package]) h (by simp)
  have b : slice package 0x50 48 = digBytes (Config.sha384 (zeros 64)) :=
    slice_mid' (a := pkgHead ++ digBytes (Config.sha384 (zeros 64))) (c := zeros 448) (by simp [package]) (by simp [h]) (by simp)
  simp [digestsOk, p, c, a, b]
theorem test_commit_update : ((received 0).fwCommit (cmd0 opFwUpdate []) package).sec.next = 1
    ∧ ((received 3).fwCommit (cmd0 opFwUpdate []) package).sec.next = 0 := by decide +kernel

theorem witness_RegisterCommands : Executes (asked base opWriteReg (argsPairs [(0x18, 5)])) hd0 opWriteReg (argsPairs [(0x18, 5)])
      (cmd0 opWriteReg (argsPairs [(0x18, 5)])) []
    ∧ Executes (asked base opWriteMem (argsMem 0x100 [7])) hd0 opWriteMem (argsMem 0x100 [7]) (cmd0 opWriteMem (argsMem 0x100 [7])) []
    ∧ Reads (reads0 base opReadReg (beBytes 4 0x18 ++ beBytes 2 1 ++ zeros 2)) hd0 opReadReg (beBytes 4 0x18 ++ beBytes 2 1 ++ zeros 2)
      (cmd0 opReadReg (beBytes 4 0x18 ++ beBytes 2 1 ++ zeros 2)) []
    ∧ base.farReg 0x18 = false ∧ base.oneRegion (0x100, 1) = true ∧ base.farBytes 0 0x100 1 = 0 ∧ base.ownerClosed 0x100 1 = false
    ∧ base.ownerClosed 0x10000 1 = true ∧ base.accRange 0 0x100 1 = .ok
    ∧ (base.readReg true true .ok 0x18).2.1 = 0 ∧ (base.readReg true true .ok 0xFFFF0).2.1 ≠ 0 :=
  ⟨executes_base _ _, executes_base _ _, reads_base _ _, by decide +kernel⟩
theorem test_write_mem : (run (.writeMem hd0 0x100 [7]) (asked base opWriteMem (argsMem 0x100 [7]))).byte 0x100 = 7 := by decide +kernel
theorem test_read_reg : (run (.readReg hd0 0x18 1) (reads0 { base with regs := [(0x18, 0x1234)] } opReadReg (beBytes 4 0x18 ++ beBytes 2 1 ++ zeros 2))).ctl.out.getLast?
    = some (.resp sess0.peer 2 ⟨opReadReg, 1, 0, 7, [0, 0, 0x12, 0x34]⟩) := by decide +kernel

/-- A Forming Image of format 1.4 with the two sections that every image has: a shape of 4 by 4 by 2, a VOTE_TIMEOUT of 1 ms (R374, R384, R385). -/
def image : List Byte :=
  leBytes 4 0x544C4649 ++ [0x14, 0, 0, 0] ++ leBytes 4 448 ++ leBytes 2 2 ++ leBytes 2 0 ++ zeros 48
    ++ [1, 0, 0, 0] ++ leBytes 4 16 ++ leBytes 4 9 ++ [4, 4, 2, 0, 0, 0, 0, 0x24, 0x10, 0x3F, 0, 0]
    ++ [2, 0, 0, 0] ++ leBytes 4 224 ++ [0, 0] ++ leBytes 2 1 ++ zeros 220
    ++ leBytes 4 0x544C4654 ++ zeros 12 ++ keyBytes k1 16 ++ zeros 96
/-- `base` with it in the commons and no thread that runs. -/
def imaged : State := { startable0 .idle with mem := writeKeys [] (commonsBase + 0x10000) image }
def argsImage : List Byte := beBytes 8 (commonsBase + 0x10000) ++ beBytes 4 448
theorem witness_LoadImage : Executes (asked imaged opLoadImage argsImage) hd0 opLoadImage argsImage (cmd0 opLoadImage argsImage) []
    ∧ (left (asked imaged opLoadImage argsImage) []).imgPlace (commonsBase + 0x10000) 448 = none
    ∧ ((left (asked imaged opLoadImage argsImage) []).imgCheck (commonsBase + 0x10000) 448 (imaged.bytes (commonsBase + 0x10000) 448) false (some (image.take 352))).1 = none
    ∧ ((left (asked imaged opLoadImage argsImage) []).imgCheck (commonsBase + 0x10000) 448 (imaged.bytes (commonsBase + 0x10000) 448) false none).1
        = some ⟨stAuth, 4, 0xFF, 0⟩ :=
  ⟨executes_asked _ _ _ ⟨rfl, rfl, rfl, rfl, rfl, rfl, rfl⟩, by decide +kernel⟩
/-- The load on its way to the follower, in progress, and at its end. -/
def onItsWay : State := run (.loadImage hd0 (BitVec.ofNat 64 (commonsBase + 0x10000)) 448 (some (image.take 352))) (asked imaged opLoadImage argsImage)
def loading : State := run .forwardedCommand onItsWay
def lastCycle (up : Bool) : State := { loading with now := 1000000000, bridge := { loading.bridge with dataUp := up } }
theorem witness_LoadPasses : (left (asked imaged opLoadImage argsImage) []).farStatus = 0 ∧ onItsWay.ctl.fwd.isSome = true ∧ onItsWay.ctl.load = none
    ∧ (match onItsWay.ctl.fwd with | some (c, .load _) => c.epoch | _ => 0) = onItsWay.ctl.mirror.epoch ∧ onItsWay.isHeld = false
    ∧ onItsWay.bridge.dataUp = true ∧ (onItsWay.half 1).inReset = false ∧ (onItsWay.half 1).up = true ∧ loading.ctl.load.isSome = true
    ∧ loading.ctl.fwd = none ∧ loading.pending = [] ∧ loading.host.fillMgmt = 0 ∧ loading.host.fillBulk = 0 ∧ loading.pstate ≠ .off := by decide +kernel
theorem witness_LoadEnds : ∀ l, loading.ctl.load = some l → l.until_ ≤ loading.now + 10000448 → l.until_ ≤ (lastCycle true).now + 1 := by
  intro l _ h; exact Nat.le_trans h (by decide +kernel)
/-- A load in its last cycle. -/
def ending : State :=
  { base with
    ctl := { base.ctl with load := some { cmd := cmd0 opLoadImage [], addr := 0, len := 0, since := 0, until_ := 1, img := { loaded := true }, regions := [carrier] } } }
theorem test_load_ends : (match step ending with | .next u => (u.img.loaded, u.regions, field (u.raw 0x60000) 7 4) | _ => (false, [], 0))
      = (true, [carrier], 1) := by
  decide +kernel
/-- A reserved byte of the header that is not zero is a bad FIELD (R374, R380). -/
theorem test_bad_header : (imaged.imgHead (image.set 7 1) 448 (some ((image.set 7 1).take 352))) = some ⟨stImage, 10, 0, 5⟩ := by decide +kernel

/-! ## Functions, pins and start-up -/

/-- `base` with gate 5 and stack 3 in a state of R423. -/
def func (f : FState) : State := { base with clk := { gates := [(5, { st := f })] }, stks := [(3, { f := { st := f } })], mem := [(2 ^ 44 + 3 * 2 ^ 36, 7)] }
theorem witness_Functions : ((func .starting).gate 5).st = .starting ∧ ((func .stopping).gate 5).st = .stopping ∧ ((func .starting).stack 3).f.st = .starting
    ∧ ((func .stopping).stack 3).f.st = .stopping ∧ (running_ .starting).pwr.run.st = .starting ∧ (running_ .starting).pwr.resets = []
    ∧ (running_ .stopping).pwr.run.st = .stopping ∧ (running_ .stopping).pwr.run.pend = false := by decide +kernel
theorem witness_StackInReset : ({ func .starting with halves := [(0, { inReset := true })] } : State).half 0 = { inReset := true }
    ∧ ((func .starting).half (3 / 6)).inReset = false ∧ (3 : Nat) / 6 = 0 := by decide +kernel
theorem test_start_fails : ((run (.functionStartFailed (.gate 5)) (func .starting)).gate 5).st = .off := by decide +kernel
theorem test_stack_loses_bytes : (run (.functionStopped (.stack 3)) (func .stopping)).mem = [] := by decide +kernel

/-- `base` before its release. -/
def unreleased : State := { base with boot := {} }
/-- `dark` after a trip. -/
def tripped : State := { dark with pwr := { dark.pwr with trip := 8, tripped := true } }
theorem witness_Pins : dark.pwr.pwrEn = false ∧ dark.pstate = .off ∧ dark.pwr.inRange = true ∧ dark.pwr.tripped = false
    ∧ tripped.pwr.tripped = true ∧ tripped.pwr.pwrEn = false ∧ tripped.pwr.inRange = true ∧ tripped.now < tripped.pwr.lowAt + 100000000
    ∧ tripped.pwr.lowAt + 100000000 ≤ ({ tripped with now := 100000000 } : State).now ∧ base.pwr.pwrEn = true ∧ base.pstate ≠ .off
    ∧ unreleased.boot.released = false ∧ unreleased.pwr.pwrGood = true ∧ 30000 ≤ (45000 : BitVec 16).toNat
    ∧ decide (46000 ≤ (45000 : BitVec 16).toNat ∧ (45000 : BitVec 16).toNat ≤ 56000) ≠ base.pwr.inRange
    ∧ (29999 : BitVec 16).toNat < 30000 ∧ (TripCause.otStack 3).sensor ≠ none ∧ field (base.raw 0x40024) 31 16 < (0xFFFF : BitVec 16).toNat
    ∧ field (base.raw 0x40024) 15 8 < (0xFF : Byte).toNat := by decide +kernel
theorem witness_StageStarts : waiting_.pending = [] ∧ waiting_.pstate = .off ∧ waiting_.pwr.pwrEn = true ∧ waiting_.pwr.inRange = true
    ∧ waiting_.pwr.tripped = false ∧ waiting_.ctl.load = none ∧ waiting_.pwr.inSince + 10000000 = waiting_.now + 1
    ∧ (dark.pstate = .off ∧ decide (46000 ≤ (45000 : BitVec 16).toNat) ≠ dark.pwr.inRange) := by decide +kernel
theorem test_lockout : (run .pwrEnRise tripped).pwr.tripped = true ∧ (run .pwrEnRise { tripped with now := 100000000 }).pwr.tripped = false
    ∧ (run .pwrEnRise { tripped with now := 100000000 }).pwr.cause = 3 := by decide +kernel
theorem test_straps_agree : ((run (.resetRelease 0 true true) unreleased).half 0).held = true
    ∧ ((run (.resetRelease 0 true false) unreleased).half 0).lead = true := by decide +kernel
theorem test_voltage_edges : (run (.inputVoltageChange 46000) base).pwr.inRange = true ∧ (run (.inputVoltageChange 56001) base).pwr.inRange = false := by
  decide +kernel

/-- A module whose boot ROM has tried `n` slots; slot 0 has SVN 1 and fuse M stands at `m`. -/
def booting (n m : Nat) : State := { base with clk := { boot := false }, boot := { released := true, tried := n }, sec := { slot0 := { valid := true, svnM := 1 }, fuseM := m } }
/-- `base` before the core firmware, or with it and every core ready before the end of start-up. -/
def starting (core : Bool) : State :=
  { base with
    host := { up := true }, boot := { released := true, fw := true, coreFw := core }, sec := { slot0 := { valid := true, svnM := 1 } }
    cores := (upto 96).map fun c => (c, { ready := true }) }
theorem witness_StartUp : (booting 0 0).boot.released = true ∧ (booting 0 0).sec.romOnly = false ∧ ((booting 0 0).sec.slotOf 0).valid = true
    ∧ (booting 0 1).sec.fuseM ≤ ((booting 0 1).sec.slotOf 0).svnM ∧ ¬((booting 0 2).sec.fuseM ≤ ((booting 0 2).sec.slotOf 0).svnM)
    ∧ (booting 1 2).boot.tried ≠ 0 ∧ (booting 0 0).clk.boot = false ∧ (booting 0 0).clk.slewing = false ∧ (starting false).boot.coreFw = false ∧ (starting false).sec.coreFwBad = false ∧ (starting true).boot.done = false
    ∧ (∀ c : CoreId, ((starting true).core c).ready = true) := by decide +kernel
theorem test_rollback : (run (.bootSlotCheck ⟨true, true, 0, 0⟩) (booting 0 2)).boot.slot = 1 ∧ (run (.bootSlotCheck ⟨true, true, 0, 0⟩) (booting 1 2)).sec.romOnly = true
    ∧ (run (.bootSlotCheck ⟨true, true, 0, 0⟩) (booting 0 1)).boot.fw = true := by decide +kernel
theorem witness_StartUpOrder : (starting false).boot.fw = true ∧ (starting false).bridge.training = false ∧ (∀ j : StackId, ((starting false).stack j).f.st ≠ .starting)
    ∧ (starting true).host.up = true ∧ (starting true).boot.coreFw = true := by decide +kernel
theorem test_fuses_rise : (run .startupComplete (starting true)).sec.fuseM = 1 := by decide +kernel

/-! ## Events, I3C, registers -/

/-- `base` with a source of the management block in a state. -/
def sourced (q : EvSrc) : State := { base with ev := { src := [(srcKey 1 0, q)] } }
/-- A GAP record, whose class is NOTICE. -/
def gap : Rec := { gap := true, block := 1 }
theorem witness_Events : ((sourced { queue := [gap] }).src (srcKey 1 0)).queue = [gap] ∧ (sourced { queue := [gap] }).takesFrom gap.half = true
    ∧ gap.more = none ∧ (sourced {}).ev.traceLen = 0 ∧ (sourced {}).ev.entryAt false 0 + 32 ≤ 0x000280000000
    ∧ ((sourced { windows := [{ code := 3, closes := 0, count := 2 }] }).src (srcKey 1 0)).windows = [{ code := 3, closes := 0, count := 2 }]
    ∧ (3 : BitVec 16).toNat = 3 ∧ 0 < ({ n := 4 } : Loss).n ∧ ((sourced { loss0 := { n := 4 } }).src (srcKey 1 0)).loss1.n = 0
    ∧ ({ n := 4 } : Loss).firstAt + 10000000 ≤ 10000000 := by decide +kernel
/-- Two sources: the record that came first is of the second. -/
def twoSources : State := { base with ev := { src := [(srcKey 1 0, { queue := [{ gap with seq := 9 }] }), (srcKey 2 0, { queue := [{ gap with block := 2, seq := 4 }] })] } }
theorem witness_NextSource : (sourced { queue := [gap] }).nextSource = some (srcKey 1 0, gap) ∧ (base.nextSource = none)
    ∧ twoSources.nextSource = some (srcKey 2 0, { gap with block := 2, seq := 4 }) := by decide +kernel
/-- A FATAL record goes before an earlier one of its cycle, and not before one of an earlier cycle (R448). -/
theorem test_fatal_first : ({ cls := .fatal, seq := 9, came := 5 } : Rec).before { seq := 4, came := 5 } = true
    ∧ ({ cls := .fatal, seq := 9, came := 5 } : Rec).before { seq := 4, came := 4 } = false := by decide +kernel
def traced : State := { sourced { queue := [{ gap with cls := .trace }] } with ev := { (sourced { queue := [{ gap with cls := .trace }] }).ev with traceLen := 64 } }
theorem witness_Trace : traced.nextSource = some (srcKey 1 0, { gap with cls := .trace }) ∧ traced.ev.traceLen ≠ 0 ∧ traced.ev.traceStopped = false
    ∧ (traced.raw 0x50014).getLsbD 31 = false ∧ commonsBase + traced.ev.traceOff + 32 * (traced.ev.traceIdx % 2) + 32 ≤ 0x000280000000 := by
  decide +kernel
theorem test_record_accept : (run (.recordAccept 1 0) (sourced { queue := [gap] })).ev.wrMain = 1 ∧ (run (.recordAccept 1 0) traced).ev.traceIdx = 1
    ∧ (run (.recordAccept 1 0) traced).ev.wrMain = 0 ∧ ((run (.recordAccept 1 0) twoSources).src (srcKey 1 0)).queue.length = 1
    ∧ ((run (.recordAccept 2 0) twoSources).src (srcKey 2 0)).queue = [] := by decide +kernel

/-- `base` with a record to stream to session 0 and telemetry due every millisecond. -/
def streaming : State :=
  { base with
    host := { up := true }, regs := [(0x50030, 1)], now := 1000000, ev := { wrMain := 1 }
    ctl := { base.ctl with sess := [(0, { sess0 with queue := [.ring false 0 0 4 1] })] } }
theorem witness_Streams : streaming.serves = true ∧ (streaming.sess 0).queue = [.ring false 0 0 4 1]
    ∧ (streaming.ev.wrMain + 2 ^ 32 - 0) % 2 ^ 32 ≤ streaming.ev.mainEntries ∧ field (streaming.raw 0x50030) 15 0 ≠ 0
    ∧ streaming.ev.teleAt + field (streaming.raw 0x50030) 15 0 * 1000000 ≤ streaming.now := by decide +kernel
theorem test_stream : (run (.eventStreamSend 0) streaming).ctl.out.length = 1 := by decide +kernel

/-- `base` with a register selected on I3C. -/
def selected (w : Word) : State := { base with i3c := { sel := some w } }
theorem witness_I3c : base.i3cOn = true ∧ base.i3c.dyn = none ∧ (selected 0).i3cServed 0 = true ∧ ((selected 0).readReg false true .ok 0).2.1 = 0
    ∧ (selected 0x100000).i3cServed 0x100000 = false := by decide +kernel
theorem test_i3c_address : (run (.entdaa 0x11) base).i3c.dyn = some 0x11 ∧ (run (.setdasa 0x12) (run (.entdaa 0x11) base)).i3c.dyn = some 0x11 := by
  decide +kernel
theorem test_i3c_bad_read : (run .i3cPrivateRead (selected 0x100000)).ctl.out = [.i3c [0, 0, 0, 0]] := by decide +kernel

theorem witness_Registers : Owns base 0 ∧ Owns { base with step := { phase := .window } } 0 ∧ Owns { base with debugOn := true } 0
    ∧ Owns { base with step := { loPending := some 5 } } 0 ∧ Owns { base with step := { phase := .uncertain } } 0 ∧ Owns (func .off) 0 := by
  unfold Owns; decide
theorem witness_RegisterValues : (base.half (halfOf 0)).inReset = false ∧ base.thread 0 0 ≠ {} ∧ (0x80000000 : Word).getLsbD 31 = true
    ∧ gateParent 5 = some 1 ∧ (base.gate 1).st = .on ∧ ((func .off).gate 5).st = .off
    ∧ field (({ base with regs := [(0x30010, 5)] } : State).raw 0x30010) 8 0 = 5 ∧ base.gateKids 20 = false ∧ base.gateKids 0 = true
    ∧ ({ base with cores := [] } : State).gateBusy 20 = false ∧ base.gateBusy 20 = true
    ∧ ({ base with pwr := { stkEn := 0 } } : State).pwr.stkEn.getLsbD 3 = false ∧ ((func .off).stack 3).f.st = .off ∧ ((func .on).stack 3).f.st = .on
    ∧ base.pwr.stkEn.getLsbD 3 = true := by decide +kernel
theorem test_committed : (run (.stepCommittedHiWrite (.sess 0) 2) { base with step := { loPending := some 5 } }).step.committed = 0x200000005 := by decide
theorem test_time_adjust : (run (.timeAdjust (.sess 0) 0xFFFFFFFF) { base with timeCount := 9, regs := [(0x30038, 0xFFFFFFFE)] }).timeCount = 7 := by decide
theorem test_resolve : (run (.resolveCommit (.sess 0)) { base with step := { phase := .uncertain } }).step.phase = .committing
    ∧ (run (.resolveAbort (.sess 0)) { base with step := { phase := .uncertain } }).step.phase = .failed := by decide +kernel
theorem test_thread_stop : ((run (.threadStop (.sess 0) 0 0) { base with debugOn := true }).thread 0 0).st = .stopped := by decide +kernel

/-! ## Sessions, queue pairs, the host port -/

/-- `base` with the port up, other sessions, and a session's two ends. -/
def ends : AddrPair := ⟨1, 2⟩
def served (x : SessSt) : State := { base with host := { up := true }, ctl := { base.ctl with sess := [(0, x)] } }
def openAt : SessSt := { sess0 with addr := ends, cin := 5 }
/-- Every slot taken. -/
def fullUp : State := { base with host := { up := true }, ctl := { base.ctl with sess := (upto 16).map fun i => (i, openAt) } }

/-- The bytes of a frame before its tag, and a datagram to the Aukor port with them. -/
def plainFrame (h : AukorHead) (b : List Byte) : List Byte := h.bytes b.length ++ b
def eth0 : EthHead := ⟨none, 100⟩
def datagram (d : List Byte) : UdpIn := ⟨eth0, ends, BitVec.ofNat 16 (served {}).img.aukorPort, d⟩
/-- A HELLO of versions 2.0 to 2.2, or of another range. -/
def helloFrame (lo hi : Byte) : UdpIn := datagram (plainFrame { ver := 0x22, type := 1, session := 0 } ([lo, hi, 0, 0] ++ zeros 32))
/-- A KEY of one fragment, without a certificate. -/
def keyFrame : UdpIn := datagram (plainFrame { ver := 0x22, type := 3, frag := 1, session := 0x100 } (zeros 196))
/-- A RENEW with REQ_ID 3, and a CLOSE, with the next counter. -/
def cmdHead : AukorHead := { ver := 0x22, type := 5, session := 0x100, counter := 6 }
def closeHead : AukorHead := { cmdHead with type := 8 }
def renewBody : List Byte := beBytes 2 opRenew ++ beBytes 2 3 ++ beBytes 4 7
def closeBody : List Byte := [0, 0, 0, 0]
/-- The frame of an open session, with its tag. -/
def tagOf_ (h : AukorHead) (b : List Byte) : List Byte := frameTag openAt.c2m (plainFrame h b)
def taggedFrame (h : AukorHead) (b : List Byte) : UdpIn := datagram (plainFrame h b ++ tagOf_ h b)
/-- A tagged frame as it is read, with any tag. -/
theorem parse_command (t : List Byte) (h : t.length = 16) :
    aukorParse (plainFrame cmdHead renewBody ++ t) = some ⟨cmdHead, renewBody, t, plainFrame cmdHead renewBody⟩ :=
  aukorParse_frame cmdHead renewBody t (by decide) (by decide) (by decide) (by decide) (by decide) (by decide) h
theorem parse_close (t : List Byte) (h : t.length = 16) :
    aukorParse (plainFrame closeHead closeBody ++ t) = some ⟨closeHead, closeBody, t, plainFrame closeHead closeBody⟩ :=
  aukorParse_frame closeHead closeBody t (by decide) (by decide) (by decide) (by decide) (by decide) (by decide) h
def cmdIn : AukorIn := ⟨cmdHead, renewBody, tagOf_ cmdHead renewBody, plainFrame cmdHead renewBody⟩

theorem fits0 : Fits (served {}) eth0 false := by unfold Fits; decide +kernel
theorem witness_Hello : Arrives (served {}) (helloFrame 0x20 0x22) 1 ⟨{ ver := 0x22, type := 1, session := 0 }, [0x20, 0x22, 0, 0] ++ zeros 32, zeros 16,
      plainFrame { ver := 0x22, type := 1, session := 0 } ([0x20, 0x22, 0, 0] ++ zeros 32)⟩
    ∧ (served {}).ctl.hello < 64 ∧ (served {}).ctl.helloAt + 1000000000 ≤ ({ served {} with now := 1000000000 } : State).now
    ∧ (0x20 ≤ min 0x22 0x22 ∧ 0x20 ≤ min 0x22 0x22) ∧ ((served {}).sess 0).st = .free
    ∧ ((served openAt).sess 1).st = .free ∧ (∀ k : SlotId, k < (1 : SlotId) → ((served openAt).sess k).st ≠ .free)
    ∧ (∀ k : SlotId, (fullUp.sess k).st ≠ .free) ∧ fullUp.serves = true ∧ ¬(0x30 ≤ min 0x22 0x32 ∧ 0x20 ≤ min 0x22 0x32) :=
  ⟨⟨by decide +kernel, fits0, by decide +kernel, by decide +kernel, by decide +kernel⟩, by decide +kernel⟩
theorem witness_Key : (served { st := .setup, id := 0x100, addr := ends }).setupOf 0x100 ends = some 0
    ∧ Arrives (served { st := .setup, id := 0x100, addr := ends }) keyFrame 3
      ⟨{ ver := 0x22, type := 3, frag := 1, session := 0x100 }, zeros 196, zeros 16, plainFrame { ver := 0x22, type := 3, frag := 1, session := 0x100 } (zeros 196)⟩
    ∧ ({ st := .setup } : SessSt).frags = [] ∧ ({ st := .setup } : SessSt).fragN = 0 ∧ keyBodyOk (zeros 196) = true
    ∧ ({ st := .setup } : SessSt).at_ + 1000000000 ≤ 1000000000 :=
  ⟨by decide +kernel, ⟨by decide +kernel, fits0, by decide +kernel, by decide +kernel, by decide +kernel⟩, by decide +kernel⟩
theorem witness_Command : Arrives (served openAt) (taggedFrame cmdHead renewBody) 5 cmdIn ∧ (served openAt).slotOf cmdIn.h.session = some 0
    ∧ cmdIn.tag = frameTag openAt.c2m cmdIn.covered ∧ openAt.cin < cmdIn.h.counter ∧ cmdIn.h.ver = openAt.ver.toNat ∧ openAt.addr = ends
    ∧ openAt.addr ≠ ({ taggedFrame cmdHead renewBody with addr := ⟨1, 3⟩ } : UdpIn).addr :=
  ⟨⟨by decide +kernel, fits0, by decide +kernel, parse_command _ (frameTag_length _ _), rfl⟩, by decide +kernel, rfl, by decide +kernel,
    rfl, rfl, by decide⟩
theorem witness_Close : Arrives (served openAt) (taggedFrame closeHead closeBody) 8
      ⟨closeHead, closeBody, tagOf_ closeHead closeBody, plainFrame closeHead closeBody⟩
    ∧ openAt.cout.toNat ≠ 2 ^ 64 - 1 ∧ openAt.at_ + 120000000000 ≤ 120000000000 ∧ (served openAt).ctl.pend = none
    ∧ (served openAt).ctl.own.sess = some 0 ∧ (served openAt).ctl.own.sid = openAt.id :=
  ⟨⟨by decide +kernel, fits0, by decide +kernel, parse_close _ (frameTag_length _ _), rfl⟩, by decide +kernel⟩
theorem witness_CommandKinds : (served openAt).inFlight (cmdOf 0 cmdIn) = false ∧ openAt.kept = []
    ∧ ({ openAt with kept := [⟨opRenew, 3, 0, 7, []⟩] } : SessSt).kept.find? (fun r => r.reqId == (cmdOf 0 cmdIn).reqId) = some ⟨opRenew, 3, 0, 7, []⟩
    ∧ argsOk (cmdOf 0 cmdIn).op (cmdOf 0 cmdIn).args = true ∧ needsMinor openAt.ver.toNat (cmdOf 0 cmdIn).op (cmdOf 0 cmdIn).args = false
    ∧ needsMinor 0x20 opSubscribe (zeros 4) = true ∧ (cmdOf 0 cmdIn).op < 0x40 ∧ (served openAt).ctl.cmdq.length < 16 ∧ argsOk 0 [] = false
    ∧ argsOk opStatus [] = true ∧ 0x40 ≤ opStatus ∧ opRenew ≠ opHandover ∧ opRenew ≠ opRelease ∧ 16 ≤ (List.replicate 16 (cmd0 0 [])).length := by
  decide +kernel
/-- A tag with one bit turned round is another tag. -/
theorem witness_WrongTag : let t := (tagOf_ cmdHead renewBody).map (· ^^^ 1)
    Arrives (served openAt) (datagram (plainFrame cmdHead renewBody ++ t)) 5 ⟨cmdHead, renewBody, t, plainFrame cmdHead renewBody⟩
    ∧ t ≠ frameTag openAt.c2m (plainFrame cmdHead renewBody) := by
  have l : (tagOf_ cmdHead renewBody).length = 16 := frameTag_length _ _
  refine ⟨⟨by decide +kernel, fits0, by decide +kernel, parse_command _ (by simpa using l), rfl⟩, ?_⟩
  show (tagOf_ cmdHead renewBody).map (· ^^^ 1) ≠ tagOf_ cmdHead renewBody
  generalize tagOf_ cmdHead renewBody = x at l
  cases x with
  | nil => cases l
  | cons a r =>
    intro h
    have z : a ^^^ 1 = a := (List.cons.inj h).1
    have w := congrArg (fun y : Byte => y.getLsbD 0) z
    simp at w
theorem witness_OtherFrames : ¬Fits (served {}) { eth0 with len := 9217 } false ∧ (0xFFFF : BitVec 16).toNat ≠ (served {}).img.aukorPort
    ∧ aukorParse (zeros 40) = none ∧ (served {}).slotOf 0x100 = none ∧ cmdHead.counter ≤ ({ openAt with cin := 6 } : SessSt).cin
    ∧ cmdHead.ver ≠ ({ openAt with ver := 0x21 } : SessSt).ver.toNat := by
  refine ⟨by unfold Fits; decide +kernel, by decide +kernel⟩
def hello_ (f : UdpIn) : State := run (.hello f.eth f.addr f.port f.data 0) (served {})
/-- A frame that is too long, one of another priority, one to another port, one with a reserved byte set. -/
theorem test_frames_dropped : (hello_ { helloFrame 0x20 0x22 with eth := ⟨none, 9217⟩ }).raw 0x70040 = 1
    ∧ (hello_ { helloFrame 0x20 0x22 with eth := ⟨some 3, 100⟩ }).raw 0x70040 = 1
    ∧ (hello_ { helloFrame 0x20 0x22 with port := 7 }).ctl.out = [.unreachable ends]
    ∧ (hello_ (datagram ((plainFrame { ver := 0x22, type := 1, session := 0 } ([0x20, 0x22, 0, 0] ++ zeros 32)).set 7 1))).raw 0x70044 = 1 := by
  decide +kernel
theorem test_hello : (hello_ (helloFrame 0x20 0x22)).ctl.out.length = 1
    ∧ ((hello_ (helloFrame 0x20 0x22)).sess 0).st = .setup ∧ ((hello_ (helloFrame 0x20 0x32)).sess 0).ver = 0x22
    ∧ ((hello_ (helloFrame 0x30 0x32)).sess 0).st = .free := by decide +kernel
theorem test_key_signature : ((run (.key keyFrame.eth keyFrame.addr keyFrame.port keyFrame.data [] (some (zeros 100))) (served { st := .setup, id := 0x100, addr := ends })).sess 0).st = .open_
    ∧ ((run (.key keyFrame.eth keyFrame.addr keyFrame.port keyFrame.data [] none) (served { st := .setup, id := 0x100, addr := ends })).sess 0).st = .free := by decide +kernel
/-- A header as R351 lays it out: MAGIC, VER, TYPE, FRAG, SESSION, COUNTER, BODY_LEN. -/
theorem test_header : cmdHead.bytes 8 = [0x41, 0x55, 0x4B, 0x52, 0x22, 5, 0, 0] ++ [0, 0, 0, 0, 0, 0, 1, 0] ++ [0, 0, 0, 0, 0, 0, 0, 6] ++ [0, 8, 0, 0, 0, 0, 0, 0]
    := by decide +kernel

/-- A queue pair with one slot of 256 B at 0x100 of slice 0, whose CTRL word is free (R348). -/
def qp5 : QpSt := { exists_ := true, qpn := 0x105, peer := 9, pmtu := 1024, ring := 0x100 }
def paired (q : QpSt) : State :=
  { base with
    host := { up := true, qps := [(5, q)], mrs := [(0, { exists_ := true, rkey := 3, addr := 0x200, len := 64, read := true, write := true })] }
    mem := [(0x104, 0xFF), (0x105, 0xFF), (0x106, 0xFF), (0x107, 0xFF)] }
def head5 : RoceHead := ⟨⟨some 3, 200⟩, 0x105, 0, 9, true, false⟩
def qpArgs : QpArgs := ⟨9, 1, 0, 8, 1, 0, 0x100, 0⟩
theorem witness_QueuePairCommands : Executes (asked base opQpCreate (argsQp qpArgs)) hd0 opQpCreate (argsQp qpArgs) (cmd0 opQpCreate (argsQp qpArgs)) []
    ∧ Executes (asked base opQpDestroy (beBytes 4 0x105)) hd0 opQpDestroy (beBytes 4 0x105) (cmd0 opQpDestroy (beBytes 4 0x105)) []
    ∧ Executes (asked base opMrReg (beBytes 8 0x200 ++ beBytes 8 64 ++ beBytes 1 3 ++ zeros 3)) hd0 opMrReg (beBytes 8 0x200 ++ beBytes 8 64 ++ beBytes 1 3 ++ zeros 3)
      (cmd0 opMrReg (beBytes 8 0x200 ++ beBytes 8 64 ++ beBytes 1 3 ++ zeros 3)) []
    ∧ Executes (asked base opMrDereg (beBytes 4 3)) hd0 opMrDereg (beBytes 4 3) (cmd0 opMrDereg (beBytes 4 3)) []
    ∧ field qpArgs.notify 7 4 = 0 ∧ qpArgs.ok = true ∧ base.touchesProg 0x100 256 = false ∧ base.accRange 0 0x100 256 = .ok ∧ (base.qp 0).exists_ = false
    ∧ (mapGet {} base.host.mrs 0 : MrSt).exists_ = false ∧ (paired qp5).qpOf 0x105 = some 5 ∧ base.qpOf 0x105 = none
    ∧ ((paired qp5).mrOf 3).isSome = true ∧ base.mrOf 3 = none :=
  ⟨executes_base _ _, executes_base _ _, executes_base _ _, executes_base _ _, by decide +kernel⟩
theorem witness_Roce : (paired qp5).host.up = true ∧ head5.icrcOk = true ∧ head5.ce = false ∧ (paired qp5).qpOf head5.qpn.toNat = some 5
    ∧ ((paired qp5).qp 5).peer = head5.peer ∧ qp5.err = false ∧ head5.psn = qp5.epsn ∧ qp5.msg = none ∧ qp5.wr = none ∧ 2 + 8 ≤ 2 ^ qp5.slotLog2
    ∧ (paired qp5).accRange 0 (qp5.slotAt 0) 256 = .ok ∧ leNat ((paired qp5).bytes 0x104 4) = 0xFFFFFFFF
    ∧ leNat (({ paired qp5 with mem := [] } : State).bytes 0x104 4) ≠ 0xFFFFFFFF ∧ (paired qp5).mrAllows 3 0x200 2 true = true
    ∧ (paired qp5).mrAllows 4 0x200 2 true = false ∧ (paired qp5).mrAllows 3 0x200 2 false = true ∧ (paired qp5).mrAllows 3 0x23F 2 false = false
    ∧ (paired qp5).accRange 0 0x200 2 = .ok ∧ ({ qp5 with cnpRx := some 0 } : QpSt).cnpRx = some 0 := by decide +kernel
theorem test_roce_send : (run (.roceSend head5 .only [1, 2]) (paired qp5)).bytes 0x100 12 = [2, 0, 0, 0, 0, 0, 0, 0, 1, 2, 0, 0] := by decide +kernel
theorem test_roce_write_outside : (run (.roceRdmaWrite head5 .only 0x23F 3 2 [1, 2]) (paired qp5)).mem = (paired qp5).mem
    ∧ (run (.roceRdmaWrite head5 .only 0x23E 3 2 [1, 2]) (paired qp5)).bytes 0x23E 2 = [1, 2] := by decide +kernel

/-- `base` with another host port. -/
def ported (h : HostSt) (cfg : Word := 0) : State := { base with host := h, regs := [(0x70004, cfg), (0x70010, 0x0A000001)] }
theorem witness_HostPort : (ported { training := true }).host.training = true ∧ ((ported {}).raw 0x70004).getLsbD 0 = false
    ∧ ({ training := true } : HostSt).trainAt + 500000000 ≤ 500000000 ∧ (0x0F : Byte) ≠ 0xFF ∧ (0x0F : Byte) &&& 15 = 15 ∧ (0x0E : Byte) &&& 15 ≠ 15
    ∧ ((ported { up := true } 0x08000000).raw 0x70004).getLsbD (24 + 3) = true ∧ field ((ported { up := true } 0x08000000).raw 0x70004) 10 8 ≠ 3
    ∧ (ported { up := true }).serves = true ∧ (0x0A000001 : BitVec 32) = (ported { up := true }).ip4 ∧ (0x0A000001 : BitVec 32) ≠ 0
    ∧ (5 : BitVec 32) ≠ (ported { up := true }).ip4 ∧ (ported { up := true }).host.ip6 = none
    ∧ (ported { up := true }).isMine (ported { up := true }).ip6Local = true ∧ (ported { up := true }).isMine 5 = false
    ∧ ((ported { up := true } 2).raw 0x70004).getLsbD 1 = true ∧ (paired qp5).qpOf (0x105 : BitVec 24).toNat = some 5 := by decide +kernel
/-- The bulk priority with PFC on; its buffer just above 75 %, at 75 %, just below 50 %, at 50 %. -/
def buffered (n : Nat) (x : Bool) : State := ported { up := true, fillBulk := n, xoff := x } 0x08003000
theorem witness_Pause : (buffered 0 false).classPrio true = 3 ∧ (buffered 0 false).pfcOn 3 = true ∧ (buffered 1572865 false).watchBuf.host.xoff = true
    ∧ (buffered 1572864 false).watchBuf.host.xoff = false ∧ (buffered 1048575 true).watchBuf.host.xoff = false
    ∧ (buffered 1048576 true).watchBuf.host.xoff = true ∧ (buffered 0 false).bulkPaused = false := by decide +kernel
theorem test_pause : (run (.pauseFrameRx 3 true) (buffered 0 false)).bulkPaused = true
    ∧ (run (.pauseFrameRx 3 false) { buffered 0 false with host := { up := true, paused := 8, waiting := [.arp 1 1] } }).ctl.out = [.arp 1 1] := by
  decide +kernel
theorem fits5 : Fits (paired qp5) head5.eth true := by unfold Fits; decide +kernel
theorem fits_ported : Fits (ported { up := true }) eth0 false := by unfold Fits; decide +kernel
theorem witness_NotFits : ¬Fits (paired qp5) { head5.eth with pcp := some 5 } true ∧ ¬Fits (ported { up := true }) { eth0 with len := 9217 } false
    ∧ (paired qp5).bulkPaused = false := by refine ⟨?_, ?_, by decide +kernel⟩ <;> · unfold Fits; decide +kernel
/-- A READ of 3000 B at a PMTU of 1024 (R346). -/
theorem test_read_cut : ((cutAt 1024 (zeros 3000)).map fun p => (p.2.1, p.2.2.length)) = [(.first, 1024), (.middle, 1024), (.last, 952)]
    ∧ ((cutAt 1024 (zeros 1024)).map fun p => p.2.1) = [.only] ∧ ((cutAt 1024 []).map fun p => p.2.1) = [.only] := by decide +kernel
theorem test_bad_opcode : (run (.hostFrameDrop (.roceOpcode head5)) (paired qp5)).ctl.out = [.roce qp5.peerQpn 0 .nakInvalid] := by decide +kernel
theorem test_arp : (run (.arpFrame 7 0x0A000001) (ported { up := true })).ctl.out = [.arp 7 0x0A000001]
    ∧ (run (.arpFrame 7 0x0A000002) (ported { up := true })).ctl.out = [] := by decide
theorem test_four_lanes : (run (.hostTrainTimeout 0x0F) { ported { training := true } with now := 500000000 }).host.four = true := by decide

/-! ## Ill-formed commands are refused -/

theorem test_wf : ¬(Instr.regWrite .i3c 0xB001C 0).WellFormed ∧ ¬(Instr.regReadClear .i3c 2).WellFormed ∧ ¬(Instr.linkGroupRx 0 0 []).WellFormed
    ∧ ¬(Instr.hostTrainTimeout 0xFF).WellFormed ∧ ¬(Instr.trip []).WellFormed ∧ ¬(Instr.writeReg hd0 []).WellFormed ∧ ¬(Instr.writeMem hd0 0 []).WellFormed
    ∧ (Instr.regWrite .i3c 0x18 0).WellFormed ∧ (Instr.linkGroupRx 0 0 (List.replicate 8 0)).WellFormed := by decide +kernel
theorem test_wf_lengths : ¬(Instr.writeReg hd0 (List.replicate 129 (0, 0))).WellFormed ∧ ¬(Instr.writeMem hd0 0 (zeros 1025)).WellFormed
    ∧ ¬(Instr.recover hd0 0 (zeros 1025) none).WellFormed ∧ ¬(Instr.fwUpdateData hd0 0 (zeros 1025)).WellFormed
    ∧ ¬(Instr.debugEnable hd0 (zeros 1025) none).WellFormed ∧ (Instr.writeMem hd0 0 (zeros 1024)).WellFormed := by decide +kernel

end Sys2Proof.Tests
end

section
/-! PROOFS. Accesses of registers: whose write is carried out and what it answers, how an address of a core decodes, which function
carries out a write or a read once its block is reached. -/

namespace Sys2Proof.Machine

open Sys2Proof.Safety

/-! ## Who writes (R10) -/

/-- A write of an open session that is not the owner's leaves the state and answers an error. -/
theorem State.writeAs_refused (s : State) (i : SlotId) (a : Nat) (f : State → Effect) (hl : s.leadRuns = true)
    (ho : (s.sess i).st = .open_) (hn : s.isOwner i = false) :
    ∃ st, st ≠ 0 ∧ s.writeAs (.sess i) a f = s.emit (.regStatus (w32 a) st) := by
  by_cases hh : s.isHeld = true
  · exact ⟨stHeld, by decide, by simp [State.writeAs, hl, ho, hh]⟩
  · exact ⟨stNotOwner, by decide, by simp [State.writeAs, hl, ho, hh, hn]⟩

/-- A row that is a write of the owner answers the status of its effect. -/
theorem writes_of_owner {x : Instr} {s b : State} {i : SlotId} {a st : Nat} (f : State → Effect) (h : Owns s i)
    (hx : exec x s = .next (s.writeAs (.sess i) a f)) (hf : f s = (b, st)) : Writes x s b a st := by
  rw [Writes, hx, s.writeAs_owner i a f h, hf]

theorem isOwner_of_owns {s : State} {i : SlotId} (h : Owns s i) : s.isOwner i = true := by
  obtain ⟨-, -, -, howned, hsess, hsid⟩ := h
  simp [State.isOwner, howned, hsess, hsid]

/-- The owner's session is open, and its reads are served while no part of a command is on its way to the follower (R361). -/
theorem reads_of_owns {s : State} {i : SlotId} (h : Owns s i) (hfwd : s.ctl.fwd = none) :
    s.readsRun = true ∧ (s.sess i).st = .open_ := by
  obtain ⟨hlead, hopen, -, -, -, -⟩ := h
  exact ⟨by simp [State.readsRun, hlead, hfwd], hopen⟩

/-- A read of an open session answers the value, or the status of what keeps it from being read. -/
theorem State.readAs_value (s b : State) (i : SlotId) (a : Nat) (e : AccErr) (v : Word) (hl : s.readsRun = true)
    (ho : (s.sess i).st = .open_) (hr : s.readReg (s.isOwner i) (s.isOwner i) e a = (b, 0, v)) :
    s.readAs (.sess i) a e = b.emit (.regValue (w32 a) v) := by
  simp [State.readAs, State.answerRead, hl, ho, hr]

theorem State.readAs_status (s : State) (i : SlotId) (a : Nat) (e : AccErr) (st : Nat) (hl : s.readsRun = true)
    (ho : (s.sess i).st = .open_) (hst : st ≠ 0) (hr : s.readReg (s.isOwner i) (s.isOwner i) e a = (s, st, 0)) :
    s.readAs (.sess i) a e = s.emit (.regStatus (w32 a) st) := by
  simp [State.readAs, State.answerRead, hl, ho, hr, hst]

/-! ## Which address decodes (R23) -/

theorem State.writeReg_undecoded (s : State) (a : Nat) (v : Word) (h : decodeReg a = none) : s.writeReg a v = (s, stAddr) := by
  simp [State.writeReg, h]

theorem State.readReg_undecoded (s : State) (own clear : Bool) (e : AccErr) (a : Nat) (h : decodeReg a = none) :
    s.readReg own clear e a = (s, stAddr, 0) := by
  simp [State.readReg, h]

/-- The three blocks of a core follow one another in its 64 KiB. -/
theorem blockAt_ofCore (c : CoreId) (a o : Nat) (ha : a = 0x20000000 + c * 0x10000 + o) (ho : o < 0x10000) :
    blockAt a = if o < 0x4000 then some (.core, c.val, o) else if o < 0x8000 then some (.arr, c.val, o - 0x4000)
      else some (.vec, c.val, o - 0x8000) := by
  have hc := c.isLt
  have hoff : a % 0x10000 = o := by omega
  have hinst : (a - 0x20000000) / 0x10000 = c.val := by omega
  have hmgmt : ¬a < 0x000F0000 := by omega
  have hgap : ¬a < 0x10000000 := by omega
  have hhalf : ¬a < 0x20000000 := by omega
  have hcores : a < 0x20600000 := by omega
  simp only [blockAt, hoff, hinst, hmgmt, hgap, hhalf, hcores, if_true, if_false]

theorem blockAt_aCore (c : CoreId) (o : Nat) (h : o < 0x4000) : blockAt (aCore c o) = some (.core, c.val, o) :=
  (blockAt_ofCore c _ o rfl (by omega)).trans (if_pos h)

theorem blockAt_aArr (c : CoreId) (o : Nat) (h : o < 0x4000) : blockAt (aArr c o) = some (.arr, c.val, o) := by
  have harr : ¬o + 0x4000 < 0x4000 ∧ o + 0x4000 < 0x8000 := by omega
  simpa [harr] using blockAt_ofCore c (aArr c o) (o + 0x4000) (by unfold aArr; omega) (by omega)

/-- The row of CORE_THR_CTL, and that of ARR_DBG_DATA0. -/
def rowThrCtl : RegRow := { name := "CORE_THR_CTL", off := 0x10, rw := 0xFFFFFFFF }
def rowDbgData0 : RegRow := { name := "ARR_DBG_DATA0", off := 0x84 }

@[simp] theorem rowThrCtl_off : rowThrCtl.off = 0x10 := rfl
@[simp] theorem rowDbgData0_off : rowDbgData0.off = 0x84 := rfl
@[simp] theorem rowDbgData0_rc : rowDbgData0.rc = 0 := rfl

theorem decodeReg_thrCtl (c : CoreId) : decodeReg (aCore c 0x010) = some ⟨.core, c.val, rowThrCtl, 0⟩ := by
  have hrow : (regRows .core).find? (fun r => r.has 0x010) = some rowThrCtl := by decide
  simp [decodeReg, blockAt_aCore c 0x010 (by omega), hrow, rowThrCtl]

theorem decodeReg_dbgData0 (c : CoreId) : decodeReg (aArr c 0x084) = some ⟨.arr, c.val, rowDbgData0, 0⟩ := by
  have hrow : (regRows .arr).find? (fun r => r.has 0x084) = some rowDbgData0 := by decide
  simp [decodeReg, blockAt_aArr c 0x084 (by omega), hrow, rowDbgData0]

/-! ## Which block is reached (R24) -/

/-- A block of neither half, but for the router, is always reached. -/
theorem State.regReach_wide (s : State) (r : RegAddr) (hb : r.block ≠ .rte) (hw : halfOfReg r = none) : s.regReach r = 0 := by
  simp [State.regReach, State.rteHalf, hb, hw]

/-- A block of a core is reached where its half is not in reset, and the bridge is up for half 1. -/
theorem State.regReach_core (s : State) (r : RegAddr) (c : CoreId) (hb : r.block ≠ .rte) (hw : halfOfReg r = some (halfOf c))
    (hr : (s.half (halfOf c)).inReset = false) (hd : c.val < 48 ∨ s.bridge.dataUp = true) : s.regReach r = 0 := by
  have hnear : ¬(halfOf c = 1 ∧ s.bridge.dataUp = false) := by
    rintro ⟨h1, h2⟩
    rcases hd with hlt | hup
    · unfold halfOf at h1; omega
    · rw [h2] at hup; cases hup
  simp [State.regReach, State.rteHalf, hb, hw, hr, hnear]

/-! ## What carries out an access -/

/-- A register of a module-wide block of the management side is always reached. -/
theorem State.writeReg_mgmt (s : State) (a : Nat) (v : Word) (r : RegAddr) (hd : decodeReg a = some r)
    (hb : r.block ∉ [.stp, .rte, .core, .arr, .vec]) (hw : halfOfReg r = none) : s.writeReg a v = s.writeMgmt r a v := by
  have hr : s.regReach r = 0 := s.regReach_wide r (fun e => hb (by simp [e])) hw
  obtain ⟨block, inst, row, idx⟩ := r
  simp only [State.writeReg, hd, hr, ne_eq, not_true_eq_false, if_false]
  split <;> simp_all

theorem State.writeReg_step (s : State) (a : Nat) (v : Word) (r : RegAddr) (hd : decodeReg a = some r) (hb : r.block = .stp) :
    s.writeReg a v = s.writeStep r a v := by
  have hr : s.regReach r = 0 := s.regReach_wide r (by simp [hb]) (by simp [halfOfReg, hb])
  simp [State.writeReg, hd, hr, hb]

theorem State.writeReg_core (s : State) (a : Nat) (v : Word) (r : RegAddr) (hd : decodeReg a = some r) (hb : r.block = .core)
    (hr : s.regReach r = 0) : s.writeReg a v = s.writeCore r a v := by
  simp [State.writeReg, hd, hr, hb]

end Sys2Proof.Machine
end

section
/-! PROOFS. What a write of memory by the module's own engines can change, and the step record with it. -/

namespace Sys2Proof.Machine

/-! ## Writes of memory (R173, R185) -/

/-- From `s` to `u` nothing has changed but memory, events, their counters, the list of memory errors, the windows that count them, and
the latch MEM_UE of the step. -/
def Stored (s u : State) : Prop :=
  ∃ mem ev regs ecc seen ue,
    u = { s with mem := mem, ev := ev, regs := regs, ecc := ecc, ceSeen := seen, step := { s.step with memUe := ue } }

theorem Stored.refl (s : State) : Stored s s := ⟨_, _, _, _, _, _, rfl⟩

theorem Stored.trans {s t u : State} (h : Stored s t) (k : Stored t u) : Stored s u := by
  obtain ⟨_, _, _, _, _, _, rfl⟩ := h
  obtain ⟨_, _, _, _, _, _, rfl⟩ := k
  exact ⟨_, _, _, _, _, _, rfl⟩

theorem Stored.foldl {α : Type} (f : State → α → State) (h : ∀ s a, Stored s (f s a)) :
    ∀ (l : List α) (s : State), Stored s (l.foldl f s)
  | [], s => Stored.refl s
  | a :: l, s => (h s a).trans (Stored.foldl f h l _)

theorem Scanned.stored {s u : State} (h : Scanned s u) : Stored s u := by
  obtain ⟨_, _, _, _, _, rfl⟩ := h
  exact ⟨_, _, _, _, _, _, rfl⟩

/-- An update of memory and of its list of errors alone. -/
theorem Stored.of_mem (s : State) (m : Map Byte) (e : List EccLoc) : Stored s { s with mem := m, ecc := e } :=
  ⟨_, _, _, _, _, _, rfl⟩

theorem stored_post (s : State) (h b i : Nat) (cls : EvClass) (code : Nat) (pl : List Byte) (m : Option (List Byte)) :
    Stored s (s.post h b i cls code pl m) := by
  obtain ⟨ev, regs, e⟩ := s.post_frame h b i cls code pl m
  exact ⟨_, _, _, _, _, _, e⟩

theorem stored_scan (s : State) (us : List Nat) (kind req : Nat) : Stored s (s.scanUnits us kind req).1 :=
  (s.scanUnits_frame us kind req).stored

theorem stored_refreshBeat (s : State) (a : Nat) : Stored s (s.refreshBeat a) := by
  unfold State.refreshBeat
  cases regionAt s.regions a with
  | none => exact Stored.refl s
  | some r =>
    dsimp only
    split
    · exact Stored.of_mem s _ s.ecc
    · exact Stored.refl s

theorem stored_store (s : State) (a : Nat) (l : List Byte) : Stored s (s.store a l) := by
  have h : Stored s { s with mem := writeBytes s.regions s.mem a l } := Stored.of_mem s _ s.ecc
  unfold State.store
  dsimp only
  split
  · exact h
  · exact h.trans (Stored.foldl _ stored_refreshBeat _ _)

theorem stored_beatAfter (s : State) (us : List Nat) (req a : Nat) : Stored s (s.beatAfter us req a).1 := by
  unfold State.beatAfter
  cases regionAt s.regions a with
  | none => exact Stored.refl s
  | some r =>
    dsimp only
    split
    · have hscan := fun vs => (stored_scan s vs 0 req).trans (stored_scan _ [unitKey (r.metaKey a)] 1 req)
      dsimp only
      split
      · exact hscan _
      · exact (hscan _).trans (stored_refreshBeat _ _)
    · exact Stored.refl s

theorem stored_beatsAfter (us : List Nat) (req : Nat) (l : List Nat) : ∀ q : State × Bool,
    Stored q.1 (l.foldl (fun (q : State × Bool) x => let z := q.1.beatAfter us req x; (z.1, q.2 || z.2)) q).1 := by
  induction l with
  | nil => intro q; exact Stored.refl q.1
  | cons a l ih => intro q; exact (stored_beatAfter q.1 us req a).trans (ih (_, _))

theorem stored_write (s : State) (a : Nat) (l : List Byte) (req : Nat) : Stored s (s.write a l req).1 := by
  unfold State.write
  extract_lets n us hit part bad
  split
  · exact stored_store s a l
  · have hclear : Stored s { s with ecc := s.ecc.filter fun e => !(hit.contains e && s.covers a n e.key) } :=
      Stored.of_mem s s.mem _
    have hbytes := fun q => Stored.foldl (fun (q : State) i =>
        match keyOf s.regions (a + i) with
        | none => q
        | some k => if bad.contains (unitKey k) then q else { q with mem := mapSet 0 q.mem k (nth 0 l i) })
      (fun q i => by
        cases keyOf s.regions (a + i) with
        | none => exact Stored.refl q
        | some k =>
          dsimp only
          split
          · exact Stored.refl q
          · exact Stored.of_mem q _ q.ecc) (upto n) q
    have hwritten := (hclear.trans (stored_scan _ (part.map (·.key)) 1 req)).trans (hbytes _)
    dsimp only
    split
    · exact hwritten
    · exact hwritten.trans (stored_beatsAfter _ _ _ (_, _))

/-! ## The step record (R214) -/

theorem stored_recPut (s : State) (o : Nat) (l : List Byte) : Stored s (s.recPut o l) := by
  unfold State.recPut
  cases s.recAt with
  | none => exact Stored.refl s
  | some a => exact stored_write s _ _ _

theorem stored_copyStep (s : State) : Stored s s.copyStep := (stored_recPut s _ _).trans (stored_recPut _ _ _)

/-- A change of phase changes the phase, and memory where the record lies. -/
theorem stored_setPhase (s : State) (p : Phase) : Stored { s with step := { s.step with phase := p } } (s.setPhase p) :=
  stored_recPut _ _ _

/-- The start of a commit flips the selectors, keeps the bitmaps of the result and changes the phase (R229). -/
theorem stored_startCommit (s : State) (sil : List Byte) :
    Stored
      { s with step := { s.step with
          bankSel := s.step.bankSel ^^^ BitVec.ofNat 16 s.bankDef, silNz := BitVec.ofNat 1024 (leNat (slice sil 0 128))
          silFs := BitVec.ofNat 1024 (leNat (slice sil 128 128)), phase := .committing } }
      (s.startCommit sil) :=
  stored_setPhase _ _

end Sys2Proof.Machine
end

section
/-! PROOFS. Bits of control words, threads that stop and resume, and the sample of an accumulator entry. -/

namespace Sys2Proof.Machine

/-! ## One bit of a word -/

theorem getLsbD_setField_bit {n : Nat} (x : BitVec n) (j k : Nat) (b : Bool) (hj : j < n) :
    (setField x j j (b2n b)).getLsbD k = if k = j then b else x.getLsbD k := by
  have hone : ∀ i, Nat.testBit 1 i = decide (i = 0) := fun i =>
    (Nat.testBit_two_pow_sub_one 1 i).trans (by simp)
  have hval : ∀ i, (b2n b % 2).testBit i = (decide (i = 0) && b) := by
    intro i; cases b <;> simp [b2n, hone]
  simp only [setField, BitVec.getLsbD_ofNat, Nat.testBit_or, Nat.testBit_and, Nat.testBit_xor, Nat.testBit_shiftLeft,
    Nat.testBit_two_pow_sub_one, Nat.add_sub_cancel_left, Nat.pow_one, Nat.add_one_sub_one, hone, hval, BitVec.testBit_toNat]
  by_cases hk : k = j
  · subst hk
    simp [hj]
  · have hoff : (decide (k ≥ j) && decide (k - j = 0)) = false := by simp; omega
    by_cases hn : k < n
    · simp [hk, hn, ← Bool.and_assoc, hoff]
    · simp [hk, hn, BitVec.getLsbD_of_ge x k (by omega)]

/-- A single bit set. -/
theorem getLsbD_setField_one {n : Nat} (x : BitVec n) (j : Nat) (hj : j < n) : (setField x j j 1).getLsbD j = true :=
  (getLsbD_setField_bit x j j true hj).trans (if_pos rfl)

theorem getLsbD_setField_zero {n : Nat} (x : BitVec n) (j : Nat) (hj : j < n) : (setField x j j 0).getLsbD j = false :=
  (getLsbD_setField_bit x j j false hj).trans (if_pos rfl)

/-! ## Threads that stop and resume (R108) -/

/-- What a map reads where every listed value has changed. -/
theorem mapGet_map {α : Type} (d : α) (f : Nat × α → α) (m : Map α) (k : Nat) (h : mapGet d m k ≠ d) :
    mapGet d (m.map fun p => (p.1, f p)) k = f (k, mapGet d m k) := by
  induction m with
  | nil => exact absurd rfl h
  | cons p r ih =>
    obtain ⟨a, x⟩ := p
    by_cases hk : k = a
    · subst hk; simp [mapGet]
    · simp only [mapGet, hk, if_false] at h
      simp [mapGet, hk, ih h]

/-- A thread that is listed, in a core that is not in its fault state, stops where its bit is set and it runs, and goes on where its bit
is clear and it has been stopped. -/
theorem CoreSt.thread_setStop (k : CoreSt) (v : Word) (t : Nat) (hf : k.faultState = false) (hl : k.thread t ≠ {}) :
    (k.setStop v).thread t = if (k.thread t).st = .run ∧ v.getLsbD t then { k.thread t with st := .stopped }
      else if (k.thread t).st = .stopped ∧ v.getLsbD t = false then { k.thread t with st := .run } else k.thread t := by
  simp only [CoreSt.thread] at hl
  simp only [CoreSt.thread, CoreSt.setStop, hf]
  exact mapGet_map _ (fun p => _) _ _ hl

/-! ## Accumulator samples (R100, R101) -/

/-- A read that meets no error changes only the sample of its core, which is then the entry that ARR_DBG_SEL names. -/
theorem State.sample_ok (s : State) (c : Nat) :
    (let w := s.raw (aArr c 0x080)
     ((s.sample c .ok).core c).arr.dbg.e = mapGet {} (s.core c).arr.acc (field w 16 16 * 8192 + field w 15 8 * 32 + field w 4 0))
    ∧ { s.sample c .ok with cores := s.cores } = s := by
  refine ⟨?_, rfl⟩
  simp [State.sample, State.modArr, State.core_modCore, Sys2Proof.Machine.accKey]

/-- A read of ARR_DBG_DATA0 that reaches it is denied outside debug mode. -/
theorem State.readReg_dbgData0_denied (s : State) (own clear : Bool) (e : AccErr) (c : CoreId) (hdbg : s.debugOn = false)
    (hr : s.regReach ⟨.arr, c.val, rowDbgData0, 0⟩ = 0) : s.readReg own clear e (aArr c 0x084) = (s, stDenied, 0) := by
  simp [State.readReg, decodeReg_dbgData0, hr, hdbg, isDbgData]

/-- One of the owner in debug mode takes a sample and nothing else. -/
theorem State.readReg_dbgData0_owner (s : State) (clear : Bool) (e : AccErr) (c : CoreId) (hdbg : s.debugOn = true)
    (hr : s.regReach ⟨.arr, c.val, rowDbgData0, 0⟩ = 0) :
    ∃ v, s.readReg true clear e (aArr c 0x084) = (s.sample c e, 0, v) := by
  have hlo : aArr c 0x084 ≠ 0x30030 ∧ aArr c 0x084 ≠ 0x40018 := by unfold aArr; omega
  refine ⟨(s.sample c e).regVal ⟨.arr, c.val, rowDbgData0, 0⟩ (aArr c 0x084), ?_⟩
  simp [State.readReg, decodeReg_dbgData0, hr, hdbg, isDbgData, State.regTake, State.senseReg, State.clearRc, hlo]

end Sys2Proof.Machine
end

section
/-! PROOFS. The commands of PWR_STK_CTL (R423, R424). -/

namespace Sys2Proof.Machine

/-- A fold of which only one element, that stands once in the list, has an effect. -/
theorem foldl_eq_of_single {α β : Type} (f : β → α → β) (l : List α) (j : α) (q u : β) (hn : l.Nodup) (hj : j ∈ l)
    (hq : ∀ k, k ∈ l → k ≠ j → f q k = q) (hf : f q j = u) (hu : ∀ k, k ∈ l → k ≠ j → f u k = u) : l.foldl f q = u := by
  have hfix : ∀ (x : β) (m : List α), (∀ k, k ∈ m → f x k = x) → m.foldl f x = x := by
    intro x m h
    induction m with
    | nil => rfl
    | cons k m ih =>
      rw [List.foldl_cons, h k (by simp)]
      exact ih fun k hk => h k (by simp [hk])
  obtain ⟨m, r, rfl⟩ := List.append_of_mem hj
  obtain ⟨-, hr, hd⟩ := List.nodup_append.mp hn
  have hm : ∀ k, k ∈ m → k ≠ j := fun k hk => hd k hk j (by simp)
  have hjr : ∀ k, k ∈ r → k ≠ j := fun k hk e => (List.nodup_cons.mp hr).1 (e ▸ hk)
  rw [List.foldl_append, hfix q m fun k hk => hq k (by simp [hk]) (hm k hk), List.foldl_cons, hf]
  exact hfix u r fun k hk => hu k (by simp [hk]) (hjr k hk)

theorem mem_upto (n k : Nat) : k ∈ upto n ↔ k < n := by
  have h : ∀ m a, k ∈ seqFrom a m ↔ a ≤ k ∧ k < a + m := by
    intro m
    induction m with
    | zero => intro a; simp [seqFrom]
    | succ m ih => intro a; simp only [seqFrom, List.mem_cons, ih]; omega
  simp [upto, h]

/-- The word of the commands with bit `j` changed: every other stack keeps its bit. -/
theorem getLsbD_stackWord (e : BitVec 12) (j : StackId) (b : Bool) (k : Nat) (hk : k < 12) :
    (BitVec.ofNat 32 (setField e j j (b2n b)).toNat).getLsbD k = if k = j.val then b else e.getLsbD k := by
  rw [BitVec.getLsbD_ofNat, BitVec.testBit_toNat, getLsbD_setField_bit e j k b j.isLt]
  simp [show k < 32 by omega]

theorem State.stkEn_stackCmd (s : State) (j : StackId) (b : Bool) (k : Nat) :
    (s.stackCmd j b).1.pwr.stkEn.getLsbD k = if k = j.val then b else s.pwr.stkEn.getLsbD k := by
  have h : (s.stackCmd j b).1.pwr.stkEn = setField s.pwr.stkEn j j (b2n b) := by simp [State.stackCmd]
  rw [h, getLsbD_setField_bit _ _ _ _ j.isLt]

/-- A write that changes the bit of one stack is that stack's command. -/
theorem State.writeStacks_single (s : State) (v : Word) (j : StackId) (b : Bool) (hb : s.pwr.stkEn.getLsbD j ≠ b)
    (hv : ∀ k, k < 12 → v.getLsbD k = if k = j.val then b else s.pwr.stkEn.getLsbD k) :
    s.writeStacks v = ((s.stackCmd j b).1, worse stAccepted (s.stackCmd j b).2) := by
  unfold State.writeStacks
  refine foldl_eq_of_single _ _ j.val _ _ (by decide) ((mem_upto _ _).mpr j.isLt) ?_ ?_ ?_
  · intro k hk hne
    have hsame : v.getLsbD k = s.pwr.stkEn.getLsbD k := (hv k ((mem_upto _ _).mp hk)).trans (if_neg hne)
    exact if_pos hsame
  · have hbit : v.getLsbD j = b := (hv j j.isLt).trans (if_pos rfl)
    dsimp only
    rw [hbit, if_neg (Ne.symm hb)]
  · intro k hk hne
    have hsame : v.getLsbD k = (s.stackCmd j b).1.pwr.stkEn.getLsbD k := by
      rw [hv k ((mem_upto _ _).mp hk), State.stkEn_stackCmd]
    exact if_pos hsame

/-- STACK_ENABLE and STACK_DISABLE of a stack whose bit they change. -/
theorem State.writeReg_stackBit (s : State) (j : StackId) (b : Bool) (hb : s.pwr.stkEn.getLsbD j ≠ b) :
    s.writeReg 0x40030 (BitVec.ofNat 32 (setField s.pwr.stkEn j j (b2n b)).toNat)
      = ((s.stackCmd j b).1, worse stAccepted (s.stackCmd j b).2) := by
  rw [s.writeReg_mgmt 0x40030 _ _ rfl (by decide) rfl]
  exact s.writeStacks_single _ j b hb fun k hk => getLsbD_stackWord _ j b k hk

theorem State.stack_stackCmd (s : State) (j : Nat) (b : Bool) (k : Nat) :
    (s.stackCmd j b).1.stack k
      = if k = j then { s.stack j with f := (if b then (s.stack j).f.enable else (s.stack j).f.disable true true).1 } else s.stack k :=
  State.stack_modStack s j k fun x => { x with f := (if b then (s.stack j).f.enable else (s.stack j).f.disable true true).1 }

theorem State.stackCmd_mem (s : State) (j : Nat) (b : Bool) : (s.stackCmd j b).1.mem = s.mem := rfl

end Sys2Proof.Machine
end

section
/-! PROOFS. What a module cold reset leaves, which accesses are refused, and the registers whose access is an operation. -/

namespace Sys2Proof.Machine

open Sys2Proof.Safety

/-! ## Reset and refused accesses -/

/-- Settles O3: nothing is listed at reset, so every core, thread, link and session reads as the default of its kind. -/
theorem resetValues : Obligations.ResetValues := by
  have hcore : ∀ c, State.reset.core c = {} := fun c => mapGet_nil _ c
  have hthread : ∀ c t, State.reset.thread c t = {} := fun c t => by rw [State.thread, hcore]; rfl
  have hlink : ∀ l, State.reset.link l = {} := fun l => mapGet_nil _ l
  have hsess : ∀ i, State.reset.sess i = {} := fun i => mapGet_nil _ i
  have hsreg : ∀ r, ({} : ThreadSt).sreg r = 0 := fun r => ite_self _
  refine ⟨⟨rfl, rfl, rfl, rfl, rfl, rfl, rfl, rfl, rfl, rfl, rfl, rfl, rfl, ?_, ?_, ?_, ?_⟩, rfl, rfl⟩
  · intro c t
    rw [hthread]
    exact ⟨rfl, rfl, hsreg, fun r => mapGet_nil _ r, fun r => mapGet_nil _ r⟩
  · intro c; rw [hcore]; exact ⟨rfl, rfl⟩
  · intro l; rw [hlink]
  · intro i; rw [hsess]

/-- Settles O7: a write is refused before it is decoded, and neither a write nor a read of an address without a register has an effect. -/
theorem refusedAccesses : Obligations.RefusedAccesses := by
  intro s i a v
  refine ⟨fun hl ho hn => ?_, fun howns hd => ?_, fun own clear e hd => ?_⟩
  · obtain ⟨st, hst, hw⟩ := s.writeAs_refused i a.toNat (fun q => q.writeReg a.toNat v) hl ho hn
    exact ⟨st, hst, congrArg Host.Outcome.next hw⟩
  · exact writes_of_owner _ howns rfl (s.writeReg_undecoded _ v hd)
  · exact s.readReg_undecoded own clear e _ hd

/-! ## Plain registers and counters -/

/-- A register of 32 RW bits takes the value written (R5). -/
theorem RegRow.written_rw (r : RegRow) (old v : Word) (hrw : r.rw = 2 ^ 32 - 1) (hnz : r.nz = []) : r.written old v = v := by
  refine BitVec.eq_of_getLsbD_eq fun i hi => ?_
  simp only [RegRow.written, hrw, hnz, List.foldl_nil, Nat.xor_zero, BitVec.getLsbD_ofNat, Nat.testBit_or, Nat.testBit_and,
    Nat.testBit_xor, BitVec.testBit_toNat, show (0xFFFFFFFF : Nat) = 2 ^ 32 - 1 from rfl, Nat.testBit_two_pow_sub_one, hi]
  simp

/-- MOD_SCRATCH takes the value written. -/
theorem State.writeReg_scratch (s : State) (v : Word) : s.writeReg 0x18 v = (s.setRaw 0x18 v, 0) := by
  have hplain : s.writeReg 0x18 v = (s.setRaw 0x18 (RegRow.written _ (s.raw 0x18) v), 0) := s.writeReg_mgmt 0x18 v _ rfl (by decide) rfl
  rw [hplain, RegRow.written_rw _ _ _ rfl rfl]

/-- OWN_CLAIMS shows its count, and its RC bits clear where the read clears (R5, R9). -/
theorem State.readReg_claims (s : State) (own clear : Bool) :
    s.readReg own clear .ok 0x10030 = (if clear then s.setRaw 0x10030 0 else s, 0, s.raw 0x10030) := by
  have hshown : s.raw 0x10030 &&& ~~~(w32 0) = s.raw 0x10030 := BitVec.and_allOnes
  have hcleared : s.raw 0x10030 &&& ~~~(w32 0xFFFFFFFF) = 0 := BitVec.and_zero
  have hread : s.readReg own clear .ok 0x10030 = (if clear then s.setRaw 0x10030 (s.raw 0x10030 &&& ~~~(w32 0xFFFFFFFF)) else s, 0,
      s.raw 0x10030 &&& ~~~(w32 0)) := by
    cases clear <;> rfl
  rw [hread, hshown, hcleared]

/-- A counter clears by a read of the owner and not of another session. -/
theorem regReadClear_claims (s : State) (i : SlotId) (hl : s.readsRun = true) (ho : (s.sess i).st = .open_) :
    ∃ u : State, exec (.regReadClear (.sess i) 0x10030) s = .next u ∧ u.ctl.out = s.ctl.out ++ [.regValue 0x10030 (s.raw 0x10030)]
      ∧ u.raw 0x10030 = (if s.isOwner i then 0 else s.raw 0x10030) ∧ u.mem = s.mem := by
  have hx := s.readAs_value _ i 0x10030 .ok _ hl ho (s.readReg_claims (s.isOwner i) (s.isOwner i))
  refine ⟨_, congrArg Host.Outcome.next hx, ?_⟩
  cases s.isOwner i with
  | false => exact ⟨rfl, rfl, rfl⟩
  | true => exact ⟨rfl, (s.raw_setRaw 0x10030 0x10030 0).trans (if_pos rfl), rfl⟩

/-! ## TIME, the trace buffer and the frequency meter (R409, R414, R447) -/

section
variable {s : State} {i : SlotId} (h : Owns s i)
include h

theorem writes_timeAdjust (v : Word) : Writes (.timeAdjust (.sess i) v) s
    { s with timeCount := s.timeCount + BitVec.ofNat 64 (v.toNat * 2 ^ 32 + (s.raw 0x30038).toNat) } 0x3003C 0 :=
  writes_of_owner _ h rfl (s.writeReg_mgmt 0x3003C v _ rfl (by decide) rfl)

theorem writes_traceRestart : Writes (.traceRestart (.sess i) 0) s { s with ev := { s.ev with traceIdx := 0, traceStopped := false } } 0x50010 0 :=
  writes_of_owner _ h rfl (s.writeReg_mgmt 0x50010 0 _ rfl (by decide) rfl)

theorem writes_fmStart (v : Word) (hv : v.getLsbD 31 = true) : ∃ b : State, Writes (.fmStart (.sess i) v) s b 0x30020 0 ∧ b.clk.fm = true
    ∧ b.clk.fmAt = s.now ∧ b.clk.fmDone = false ∧ b.clk.fmErr = false ∧ { b with clk := s.clk, regs := s.regs } = s := by
  have hmeter : ∀ r, s.writeMeter r v = (s.plainWrite r 0x30020 v).modClk fun k =>
      { k with fm := true, fmAt := s.now, fmSteady := !k.slewing, fmDone := false, fmErr := false, fmCount := 0 } :=
    fun r => if_pos hv
  have hw := s.writeReg_mgmt 0x30020 v _ rfl (by decide) rfl
  exact ⟨_, writes_of_owner _ h rfl (hw.trans (congrArg State.accept (hmeter _))), rfl, rfl, rfl, rfl, rfl⟩

/-! ## Steps (R232, R237) -/

theorem writes_stepCommittedHi_refused (v : Word) (hp : s.step.phase ≠ .idle) : Writes (.stepCommittedHiWrite (.sess i) v) s s 0xB001C 2 :=
  writes_of_owner _ h rfl ((s.writeReg_step 0xB001C v _ rfl rfl).trans (if_pos hp))

theorem writes_stepCommittedHi (v lo : Word) (hp : s.step.phase = .idle) (hlo : s.step.loPending = some lo) :
    ∃ b : State, Writes (.stepCommittedHiWrite (.sess i) v) s b 0xB001C 0 ∧ b.step.loPending = none ∧ b.cores = s.cores
      ∧ b.step.committed = BitVec.ofNat 64 (v.toNat * 2 ^ 32 + lo.toNat) := by
  have hw : s.writeCommitted v = ({ s with step := { s.step with
      committed := BitVec.ofNat 64 (v.toNat * 2 ^ 32 + lo.toNat), loPending := none } } : State).copyStep.accept := by
    simp [State.writeCommitted, hp, hlo]
  refine ⟨_, writes_of_owner _ h rfl ((s.writeReg_step 0xB001C v _ rfl rfl).trans hw), ?_⟩
  obtain ⟨_, _, _, _, _, _, e⟩ := stored_copyStep { s with step := { s.step with
    committed := BitVec.ofNat 64 (v.toNat * 2 ^ 32 + lo.toNat), loPending := none } }
  rw [e]
  exact ⟨rfl, rfl, rfl⟩

theorem writeReg_resolve (v : Word) (hv : field v 1 0 = 1 ∨ field v 1 0 = 2) : s.writeReg 0xB0008 v =
    if s.step.phase ≠ .uncertain then s.reject
    else if field v 1 0 = 1 then ((s.startCommit s.freeBitmaps).bumpFree 256).accept
    else ((s.setPhase .failed).post 0 0x0B 0 .error 0x0C (leBytes 8 s.step.committed.toNat)).accept := by
  obtain ⟨-, -, hheld, -, -, -⟩ := h
  have hw : s.writeReg 0xB0008 v = s.resolve (field v 1 0) := s.writeReg_step 0xB0008 v _ rfl rfl
  rcases hv with hv | hv <;> simp [hw, State.resolve, hv, hheld]

theorem writes_resolve_refused (hp : s.step.phase ≠ .uncertain) :
    Writes (.resolveCommit (.sess i)) s s 0xB0008 2 ∧ Writes (.resolveAbort (.sess i)) s s 0xB0008 2 :=
  ⟨writes_of_owner _ h rfl ((writeReg_resolve h 1 (by decide)).trans (if_pos hp)),
    writes_of_owner _ h rfl ((writeReg_resolve h 2 (by decide)).trans (if_pos hp))⟩

theorem writes_resolveCommit (hp : s.step.phase = .uncertain) : ∃ b : State, Writes (.resolveCommit (.sess i)) s b 0xB0008 0
    ∧ b.step.phase = .committing ∧ b.step.bankSel = s.step.bankSel ^^^ BitVec.ofNat 16 s.bankDef ∧ b.step.committed = s.step.committed
    ∧ b.cores = s.cores := by
  refine ⟨_, writes_of_owner _ h rfl ((writeReg_resolve h 1 (by decide)).trans (if_neg fun e => e hp)), ?_⟩
  obtain ⟨_, _, _, _, _, _, e⟩ := stored_startCommit s s.freeBitmaps
  rw [e]
  exact ⟨rfl, rfl, rfl, rfl⟩

theorem writes_resolveAbort (hp : s.step.phase = .uncertain) : ∃ b : State, Writes (.resolveAbort (.sess i)) s b 0xB0008 0
    ∧ b.step.phase = .failed ∧ b.step.bankSel = s.step.bankSel ∧ b.step.committed = s.step.committed ∧ b.cores = s.cores := by
  refine ⟨_, writes_of_owner _ h rfl ((writeReg_resolve h 2 (by decide)).trans (if_neg fun e => e hp)), ?_⟩
  obtain ⟨_, _, _, _, _, _, e⟩ := (stored_setPhase s .failed).trans (stored_post _ 0 0x0B 0 .error 0x0C _ none)
  exact e ▸ ⟨rfl, rfl, rfl, rfl⟩

/-! ## Threads and samples of a core (R100, R101, R108) -/

section
variable {c : CoreId} (hr : (s.half (halfOf c)).inReset = false) (hd : c.val < 48 ∨ s.bridge.dataUp = true)
include hr hd

omit h in
theorem writeReg_thrCtl (v : Word) : s.writeReg (aCore c 0x010) v =
    if s.debugOn then (s.modCore c fun k => k.setStop v).accept else (s, stDenied) := by
  rw [s.writeReg_core _ v _ (decodeReg_thrCtl c) rfl (s.regReach_core _ c nofun rfl hr hd)]
  simp [State.writeCore]

theorem writes_thread_denied (t : ThreadId) (hdbg : s.debugOn = false) :
    Writes (.threadStop (.sess i) c t) s s (aCore c 0x010) 9 ∧ Writes (.threadResume (.sess i) c t) s s (aCore c 0x010) 9 := by
  have hw : ∀ v, s.writeReg (aCore c 0x010) v = (s, 9) := fun v => by simp [writeReg_thrCtl hr hd, hdbg, stDenied]
  exact ⟨writes_of_owner _ h rfl (hw _), writes_of_owner _ h rfl (hw _)⟩

theorem writes_threadStop (t : ThreadId) (hdbg : s.debugOn = true) (hf : (s.core c).faultState = false) (ht : s.thread c t ≠ {}) :
    ∃ b : State, Writes (.threadStop (.sess i) c t) s b (aCore c 0x010) 0 ∧ (b.core c).stop.getLsbD t = true
      ∧ ((s.thread c t).st = .run → (b.thread c t) = { s.thread c t with st := .stopped }) ∧ { b with cores := s.cores } = s := by
  have hbit := getLsbD_setField_one (s.core c).stop t t.isLt
  refine ⟨_, writes_of_owner _ h rfl ((writeReg_thrCtl hr hd _).trans (if_pos hdbg)), ?_, fun hst => ?_, rfl⟩
  · rw [State.core_modCore, if_pos rfl]; exact hbit
  · rw [State.thread, State.core_modCore, if_pos rfl, CoreSt.thread_setStop _ _ _ hf ht]
    exact if_pos ⟨hst, hbit⟩

theorem writes_threadResume (t : ThreadId) (hdbg : s.debugOn = true) (hf : (s.core c).faultState = false) (ht : s.thread c t ≠ {}) :
    ∃ b : State, Writes (.threadResume (.sess i) c t) s b (aCore c 0x010) 0 ∧ (b.core c).stop.getLsbD t = false
      ∧ ((s.thread c t).st = .stopped → (b.thread c t) = { s.thread c t with st := .run }) ∧ { b with cores := s.cores } = s := by
  have hbit := getLsbD_setField_zero (s.core c).stop t t.isLt
  refine ⟨_, writes_of_owner _ h rfl ((writeReg_thrCtl hr hd _).trans (if_pos hdbg)), ?_, fun hst => ?_, rfl⟩
  · rw [State.core_modCore, if_pos rfl]; exact hbit
  · have hrun : ¬((s.thread c t).st = .run ∧ (setField (s.core c).stop t t 0).getLsbD t = true) := by simp [hst]
    rw [State.thread, State.core_modCore, if_pos rfl, CoreSt.thread_setStop _ _ _ hf ht]
    exact (if_neg hrun).trans (if_pos ⟨hst, hbit⟩)

theorem dbgData0_denied (hfwd : s.ctl.fwd = none) (hdbg : s.debugOn = false) :
    exec (.arrDbgData0Read (.sess i) c .ok) s = .next (s.emit (.regStatus (BitVec.ofNat 32 (aArr c 0x084)) 9)) := by
  obtain ⟨hruns, hopen⟩ := reads_of_owns h hfwd
  have hreach := s.regReach_core ⟨.arr, c.val, rowDbgData0, 0⟩ c nofun rfl hr hd
  have hread := s.readReg_dbgData0_denied (s.isOwner i) (s.isOwner i) .ok c hdbg hreach
  exact congrArg Host.Outcome.next (s.readAs_status i _ .ok _ hruns hopen (by decide) hread)

theorem dbgData0_sampled (hfwd : s.ctl.fwd = none) (hdbg : s.debugOn = true) : ∃ v : Word,
    exec (.arrDbgData0Read (.sess i) c .ok) s = .next ((s.sample c .ok).emit (.regValue (BitVec.ofNat 32 (aArr c 0x084)) v)) := by
  obtain ⟨hruns, hopen⟩ := reads_of_owns h hfwd
  have hreach := s.regReach_core ⟨.arr, c.val, rowDbgData0, 0⟩ c nofun rfl hr hd
  obtain ⟨v, hread⟩ := s.readReg_dbgData0_owner (s.isOwner i) .ok c hdbg hreach
  have hread' : s.readReg (s.isOwner i) (s.isOwner i) .ok (aArr c 0x084) = (s.sample c .ok, 0, v) := by
    rw [← hread, isOwner_of_owns h]
  exact ⟨v, congrArg Host.Outcome.next (s.readAs_value _ i _ .ok v hruns hopen hread')⟩

end

/-! ## Gates and stacks (R411, R423, R424) -/

section
variable {n : Nat} (hn : field (s.raw 0x30010) 8 0 = n) (hlt : n < 308)
include hn hlt

omit h in
/-- CLK_GATE_CTL with its bit set enables the selected node, where the node above it is ON. -/
theorem writeGate_enable (work : Bool) (hp : ∀ p, gateParent n = some p → (s.gate p).st = .on) :
    s.writeGate 1 work = ((s.setRaw 0x30014 1).setGate n (s.gate n).enable.1, (s.gate n).enable.2) := by
  have hrange : ¬gateNodes ≤ n := Nat.not_le.mpr hlt
  have hbit : bit (1 : Word) 0 = true := by decide
  unfold State.writeGate
  simp only [hn, hrange, hbit, if_false, if_true]
  cases e : gateParent n with
  | none => rfl
  | some p => exact if_pos (decide_eq_true (hp p e))

omit h in
theorem writeGate_enable_refused (work : Bool) (hp : ∃ p, gateParent n = some p ∧ (s.gate p).st ≠ .on) :
    s.writeGate 1 work = s.reject := by
  obtain ⟨p, hparent, hst⟩ := hp
  have hrange : ¬gateNodes ≤ n := Nat.not_le.mpr hlt
  have hbit : bit (1 : Word) 0 = true := by decide
  unfold State.writeGate
  simp only [hn, hrange, hbit, if_false, if_true, hparent, decide_eq_false hst]
  rfl

omit h in
/-- With its bit clear it stops a node that is ON, where nothing below it runs, the node is not busy and no new work comes. -/
theorem writeGate_disable (work : Bool) (hon : (s.gate n).st = .on) : s.writeGate 0 work =
    if !(s.gateKids n) && !(s.gateBusy n) && !work then ((s.setRaw 0x30014 0).setGate n { st := .stopping }, 0) else s.reject := by
  have hrange : ¬gateNodes ≤ n := Nat.not_le.mpr hlt
  have hbit : bit (0 : Word) 0 = false := by decide
  unfold State.writeGate
  simp only [hn, hrange, hbit, if_false, Bool.false_eq_true, FuncSt.disable, hon]
  cases !(s.gateKids n) && !(s.gateBusy n) && !work <;> rfl

theorem writes_gateEnable (hp : ∀ p, gateParent n = some p → (s.gate p).st = .on) (hoff : (s.gate n).st = .off) :
    ∃ b : State, Writes (.gateEnable (.sess i)) s b 0x30014 0 ∧ b.gate n = { st := .starting } ∧ ∀ m, m ≠ n → b.gate m = s.gate m := by
  have henable : (s.gate n).enable = ({ st := .starting }, 0) := by simp [FuncSt.enable, hoff]
  have hw : s.writeGate 1 false = ((s.setRaw 0x30014 1).setGate n { st := .starting }, 0) := by
    rw [writeGate_enable hn hlt false hp, henable]
  exact ⟨_, writes_of_owner _ h rfl hw, (State.gate_setGate _ n n _).trans (if_pos rfl),
    fun m hm => (State.gate_setGate _ n m _).trans (if_neg hm)⟩

theorem writes_gateEnable_refused (hp : ∃ p, gateParent n = some p ∧ (s.gate p).st ≠ .on) :
    Writes (.gateEnable (.sess i)) s s 0x30014 2 :=
  writes_of_owner _ h rfl (writeGate_enable_refused hn hlt false hp)

theorem writes_gateDisable (hon : (s.gate n).st = .on) (hkids : s.gateKids n = false) (hbusy : s.gateBusy n = false) :
    ∃ b : State, Writes (.gateDisable (.sess i) false) s b 0x30014 0 ∧ b.gate n = { st := .stopping }
      ∧ ∀ m, m ≠ n → b.gate m = s.gate m := by
  have hw : s.writeGate 0 false = ((s.setRaw 0x30014 0).setGate n { st := .stopping }, 0) := by
    rw [writeGate_disable hn hlt false hon, hkids, hbusy]; rfl
  exact ⟨_, writes_of_owner _ h rfl hw, (State.gate_setGate _ n n _).trans (if_pos rfl),
    fun m hm => (State.gate_setGate _ n m _).trans (if_neg hm)⟩

theorem writes_gateDisable_refused (work : Bool) (hon : (s.gate n).st = .on)
    (hwork : s.gateKids n = true ∨ s.gateBusy n = true ∨ work = true) : Writes (.gateDisable (.sess i) work) s s 0x30014 2 := by
  have hw : s.writeGate 0 work = s.reject := by
    rw [writeGate_disable hn hlt work hon]
    rcases hwork with e | e | e <;> simp [e]
  exact writes_of_owner _ h rfl hw

end

theorem writes_stackEnable (j : StackId) (hen : s.pwr.stkEn.getLsbD j = false) (hoff : (s.stack j).f.st = .off) :
    ∃ b : State, Writes (.stackEnable (.sess i) j) s b 0x40030 0 ∧ (b.stack j).f = { st := .starting } ∧ b.pwr.stkEn.getLsbD j = true
      ∧ (∀ k, k ≠ j.val → b.stack k = s.stack k) ∧ b.mem = s.mem := by
  have hcmd : (s.stack j).f.enable = ({ st := .starting }, 0) := by simp [FuncSt.enable, hoff]
  have hw : s.writeReg 0x40030 (BitVec.ofNat 32 (setField s.pwr.stkEn j j 1).toNat) = ((s.stackCmd j true).1, 0) := by
    refine (s.writeReg_stackBit j true (by rw [hen]; decide)).trans (Prod.ext rfl ?_)
    simp [State.stackCmd, hcmd, worse, stAccepted, stRefused]
  refine ⟨_, writes_of_owner _ h rfl hw, ?_, (s.stkEn_stackCmd j true j).trans (if_pos rfl), fun k hk => ?_, rfl⟩
  · simp [State.stack_stackCmd, hcmd]
  · exact (s.stack_stackCmd j true k).trans (if_neg hk)

theorem writes_stackDisable (j : StackId) (hen : s.pwr.stkEn.getLsbD j = true) (hon : (s.stack j).f.st = .on) :
    ∃ b : State, Writes (.stackDisable (.sess i) j) s b 0x40030 0 ∧ (b.stack j).f = { st := .stopping } ∧ b.pwr.stkEn.getLsbD j = false
      ∧ (∀ k, k ≠ j.val → b.stack k = s.stack k) ∧ b.mem = s.mem := by
  have hcmd : (s.stack j).f.disable true true = ({ st := .stopping }, 0) := by simp [FuncSt.disable, hon]
  have hw : s.writeReg 0x40030 (BitVec.ofNat 32 (setField s.pwr.stkEn j j 0).toNat) = ((s.stackCmd j false).1, 0) := by
    refine (s.writeReg_stackBit j false (by rw [hen]; decide)).trans (Prod.ext rfl ?_)
    simp [State.stackCmd, hcmd, worse, stAccepted, stRefused]
  refine ⟨_, writes_of_owner _ h rfl hw, ?_, (s.stkEn_stackCmd j false j).trans (if_pos rfl), fun k hk => ?_, rfl⟩
  · simp [State.stack_stackCmd, hcmd]
  · exact (s.stack_stackCmd j false k).trans (if_neg hk)

end

/-! ## Every operation -/

/-- Settles O57: each row is a write or read of the owner, carried out by the function of its register. -/
theorem registerOperations : Obligations.RegisterOperations := by
  refine ⟨fun s i => ⟨fun a v => rfl, fun h v => ⟨?_, ?_⟩, regReadClear_claims s i⟩, fun s i h => ?_⟩
  · exact writes_of_owner _ h rfl (s.writeReg_scratch v)
  · exact (s.raw_setRaw 0x18 0x18 v).trans (if_pos rfl)
  intro q near
  refine ⟨fun v => ⟨writes_stepCommittedHi_refused h v, writes_stepCommittedHi h v, writes_timeAdjust h v, writes_traceRestart h,
      writes_fmStart h v⟩, ?threads, ?samples, ?gates,
    fun j => ⟨writes_stackEnable h j, writes_stackDisable h j⟩, writes_resolve_refused h,
    fun hp => ⟨writes_resolveCommit h hp, writes_resolveAbort h hp⟩⟩
  case threads =>
    rintro c t ⟨hr, hd⟩
    exact ⟨writes_thread_denied h hr hd t,
      fun hdbg hf ht => ⟨writes_threadStop h hr hd t hdbg hf ht, writes_threadResume h hr hd t hdbg hf ht⟩⟩
  case samples =>
    rintro c ⟨hr, hd⟩ hfwd
    refine ⟨dbgData0_denied h hr hd hfwd, fun hdbg => ?_⟩
    obtain ⟨v, hx⟩ := dbgData0_sampled h hr hd hfwd hdbg
    exact ⟨_, v, hx, s.sample_ok c⟩
  case gates =>
    intro n hn hlt
    refine ⟨writes_gateEnable h hn hlt, writes_gateEnable_refused h hn hlt, fun hon => ⟨writes_gateDisable h hn hlt hon, fun e => ?_, ?_⟩⟩
    · exact writes_gateDisable_refused h hn hlt false hon (e.elim .inl fun e => .inr (.inl e))
    · exact writes_gateDisable_refused h hn hlt true hon (.inr (.inr rfl))

end Sys2Proof.Machine
end

section
/-! PROOFS. Lists of numbers, lanes of a register, and bytes of a slice read back after a write. -/

namespace Sys2Proof.Machine

/-! ## Numbers in rising order -/

theorem seqFrom_eq_range' (a n : Nat) : seqFrom a n = List.range' a n := by
  induction n generalizing a with
  | zero => rfl
  | succ n ih => rw [seqFrom, ih, List.range'_succ]

theorem nth_eq_getElem {α : Type} (d : α) (l : List α) (i : Nat) (h : i < l.length) : nth d l i = l[i] := by
  induction l generalizing i with
  | nil => simp at h
  | cons x r ih =>
    cases i with
    | zero => rfl
    | succ i => exact ih i (by simpa using h)

/-! ## Lanes (R142) -/

/-- The number of lanes `a` to `a + n - 1`, each of `w` bits, lane `a` lowest; `mkV` packs `n` lanes from 0. -/
def lanesNat (w : Nat) (g : Nat → Nat) (a n : Nat) : Nat := (seqFrom a n).foldr (fun i acc => acc * 2 ^ w + g i % 2 ^ w) 0

theorem lanesNat_succ (w : Nat) (g : Nat → Nat) (a n : Nat) :
    lanesNat w g a (n + 1) = lanesNat w g (a + 1) n * 2 ^ w + g a % 2 ^ w := rfl

theorem mkV_eq_lanesNat (w n : Nat) (g : Nat → Nat) : mkV w n g = BitVec.ofNat 2048 (lanesNat w g 0 n) := rfl

theorem lanesNat_lt (w : Nat) (g : Nat → Nat) (a n : Nat) : lanesNat w g a n < 2 ^ (n * w) := by
  induction n generalizing a with
  | zero => simp [lanesNat, seqFrom]
  | succ n ih =>
    have hr : g a % 2 ^ w < 2 ^ w := Nat.mod_lt _ (Nat.two_pow_pos w)
    rw [lanesNat_succ, Nat.succ_mul, Nat.pow_add]
    calc lanesNat w g (a + 1) n * 2 ^ w + g a % 2 ^ w < (lanesNat w g (a + 1) n + 1) * 2 ^ w := by rw [Nat.succ_mul]; omega
      _ ≤ 2 ^ (n * w) * 2 ^ w := Nat.mul_le_mul_right _ (ih (a + 1))

theorem lanesNat_lane (w : Nat) (g : Nat → Nat) (a n i : Nat) (h : i < n) :
    (lanesNat w g a n >>> (i * w)) % 2 ^ w = g (a + i) % 2 ^ w := by
  have hr (a : Nat) : g a % 2 ^ w < 2 ^ w := Nat.mod_lt _ (Nat.two_pow_pos w)
  induction n generalizing a i with
  | zero => omega
  | succ n ih =>
    rw [lanesNat_succ]
    cases i with
    | zero => rw [Nat.zero_mul, Nat.shiftRight_zero, Nat.mul_add_mod', Nat.mod_mod, Nat.add_zero]
    | succ i =>
      have hshift : (lanesNat w g (a + 1) n * 2 ^ w + g a % 2 ^ w) >>> w = lanesNat w g (a + 1) n := by
        rw [Nat.shiftRight_eq_div_pow, Nat.add_comm, Nat.add_mul_div_right _ _ (Nat.two_pow_pos w), Nat.div_eq_of_lt (hr a), Nat.zero_add]
      rw [Nat.succ_mul, Nat.add_comm (i * w), Nat.shiftRight_add, hshift, ih (a + 1) i (by omega), Nat.add_right_comm, Nat.add_assoc]

/-- A lane of a register that was built from lanes (R142). -/
theorem lane_mkV (w n : Nat) (g : Nat → Nat) (i : Nat) (h : i < n) (hn : n * w ≤ 2048) : VReg.lane (mkV w n g) w i = g i % 2 ^ w := by
  have hlt := Nat.lt_of_lt_of_le (lanesNat_lt w g 0 n) (Nat.pow_le_pow_right Nat.two_pos hn)
  rw [VReg.lane, mkV_eq_lanesNat, BitVec.toNat_ofNat, Nat.mod_eq_of_lt hlt, lanesNat_lane w g 0 n i h, Nat.zero_add]

/-! ## Bytes of a slice (R165, R185) -/

/-- The key of a byte of a slice is its address (R165). -/
theorem keyOf_slice (rs : List Region) (a : Nat) (h : a < 0x180000000) : keyOf rs a = some a := if_pos h

/-- No other address of the map has the key of a byte of a slice. -/
theorem keyOf_ne_slice (rs : List Region) (x y : Nat) (hx : x < 0x180000000) (hn : y ≠ x) : keyOf rs y ≠ some x := by
  intro hk
  by_cases hy : y < dramBase
  · exact hn (keyOf_low rs y x hy hk).symm
  · have := keyOf_high rs y x (by omega) hk
    omega

theorem inSlice_le (c : CoreId) (a n : Nat) (h : inSlice c a n = true) : a + n ≤ 0x180000000 := by
  obtain ⟨-, hend⟩ := Bool.and_eq_true_iff.mp h
  have hend : a + n ≤ c * 0x04000000 + 0x04000000 := of_decide_eq_true hend
  have := c.isLt
  omega

theorem writeBytes_slice (rs : List Region) (l : List Byte) (m : Map Byte) (a : Nat) (h : a + l.length ≤ 0x180000000) :
    writeBytes rs m a l = writeKeys m a l := by
  induction l generalizing m a with
  | nil => rfl
  | cons b r ih =>
    rw [List.length_cons] at h
    simp only [writeBytes, writeKeys, keyOf_slice rs a (by omega)]
    exact ih _ (a + 1) (by omega)

theorem State.byte_congr {s u : State} (hm : u.mem = s.mem) (hr : u.regions = s.regions) (a : Nat) : u.byte a = s.byte a := by
  rw [State.byte, State.byte, hm, hr]

theorem State.bytes_congr {s u : State} (hm : u.mem = s.mem) (hr : u.regions = s.regions) (a n : Nat) : u.bytes a n = s.bytes a n :=
  List.map_congr_left fun x _ => State.byte_congr hm hr x

/-- A store in a slice reads back (R165). -/
theorem State.bytes_store (s : State) (a : Nat) (l : List Byte) (h : a + l.length ≤ 0x180000000) : (s.store a l).bytes a l.length = l := by
  unfold State.bytes
  rw [seqFrom_eq_range']
  refine List.ext_getElem (by simp) fun i _ hi => ?_
  have hmem : (s.store a l).mem = writeKeys s.mem a l := by
    simp [State.store, show a < dramBase by unfold dramBase; omega, writeBytes_slice _ _ _ _ h]
  rw [List.getElem_map, List.getElem_range', Nat.one_mul, State.byte, keyOf_slice _ _ (by omega)]
  simp only [hmem, mapGet_writeKeys]
  rw [if_pos (by omega), Nat.add_sub_cancel_left, nth_eq_getElem 0 l i hi]

/-- A byte written by its key changes at that address alone. -/
theorem State.byte_setKey_other (s : State) (k y : Nat) (b : Byte) (h : keyOf s.regions y ≠ some k) :
    ({ s with mem := mapSet 0 s.mem k b } : State).byte y = s.byte y := by
  unfold State.byte
  cases hk : keyOf s.regions y with
  | none => rfl
  | some j => exact mapGet_set_other 0 s.mem b fun e => h (e ▸ hk)

/-- A write in a slice leaves every other byte of the address map, whatever errors it meets (R185). -/
theorem State.byte_write_other (s : State) (a y req : Nat) (l : List Byte) (h : a + l.length ≤ 0x180000000)
    (hy : y < a ∨ a + l.length ≤ y) : (s.write a l req).1.byte y = s.byte y := by
  unfold State.write
  extract_lets n us hit part bad s1 p s2
  rw [if_pos (show a < dramBase by unfold dramBase; omega)]
  split
  · exact s.byte_store_other a y l (by unfold dramBase; omega) hy
  · have hscan := s1.scanUnits_frame (part.map (·.key)) 1 req
    refine (List.foldlRecOn (motive := fun q : State => q.regions = s.regions ∧ q.byte y = s.byte y) (upto n) _ ⟨hscan.regions, hscan.byte y⟩
      fun q hq i hi => ?_).2
    have hlt : i < l.length := (mem_upto n i).mp hi
    rw [keyOf_slice _ _ (by omega)]
    dsimp only
    split
    · exact hq
    · refine ⟨hq.1, Eq.trans (q.byte_setKey_other _ _ _ ?_) hq.2⟩
      exact keyOf_ne_slice _ _ _ (by omega) (by omega)

end Sys2Proof.Machine
end

section
/-! PROOFS. Row reductions of the vector engine (R66, R155). -/

namespace Sys2Proof.Machine

open Sys2Proof.Safety

/-- The word at the thread's PC spells the instruction that a ready thread fetches: the row has the instruction's effect (R109). -/
theorem State.decoded_spelled (s : State) (c t : Nat) (op : Nat × Nat) (f : IFields) (rs : List (BitVec 5))
    (body : Host.Outcome State Fault Refusal) (hr : Ready s c t rs) (hf : s.spells c t op f = true) : s.decoded c t op f body = body := by
  simp [State.decoded, hr.1, hf]

/-- A ready, legal instruction of the vector engine that writes lanes `g` of `w` bits into v[RA] does so and goes on (R106, R142). -/
theorem State.vissue_lanes (s : State) (c t : Nat) (rs : List (BitVec 5)) (ra : BitVec 5) (w : Nat) (g : ThreadSt → Nat → Nat)
    (body : State → ThreadSt → Issue) (hb : s.blockOn c 1 = true) (hr : Ready s c t rs)
    (hbody : ∀ (s1 : State) x, body s1 x = s1.retireV c t x ra (mkV w (2048 / w) (g x))) :
    ∃ u v, s.vissue c t rs true body = .next u ∧ OnlyThread (s.fetch c t) u c t (vresult ra v (fetchedOf s c t))
      ∧ ∀ j, j < 2048 / w → VReg.lane v w j = g (fetchedOf s c t) j % 2 ^ w :=
  ⟨_, mkV w (2048 / w) (g (fetchedOf s c t)), by rw [State.vissue, if_pos hb]; exact s.issue_done _ c t rs _ body hr (hbody _ _),
    onlyThread_retire _ c t _ _, fun j hj => lane_mkV w _ _ j hj (Nat.div_mul_le_self 2048 w)⟩

/-- A reduction with sound fields leaves its result in every binary32 lane of v[RA] (R155). -/
theorem reduceOp_lanes (i : Instr) (s : State) (c : CoreId) (t : ThreadId) (f : IFields) (o : Nat × Nat) (usesRd : Bool)
    (val : ThreadSt → Nat → Nat) (op : Nat → Nat → Nat) (empty : Nat) (hi : threadOp i = some (o, c, t, f))
    (hexec : exec i s = s.decoded c t o f (reduceOp c t f usesRd val op empty s))
    (hb : s.blockOn c 1 = true) (hr : Ready s c t [f.rc])
    (hlegal : (f.plain && redFmt f.fmtS && f.fmtD == 0 && f.im 21 9 == 0 && f.im 4 0 == 0 && vok f.ra
      && decide (f.rb.toNat + f.nreg ≤ 16)) = true)
    (hrd : (if usesRd then decide (f.rd.toNat + f.nreg ≤ 16) else f.rd == 0) = true) :
    Lanes i s c t f.ra 32 (fun x _ => (rowFold op none (redRows x f (val x))).getD empty) := by
  intro hf
  rw [hexec, s.decoded_spelled c t o f _ _ hr (hf o c t f hi), reduceOp, hlegal, hrd]
  exact s.vissue_lanes c t [f.rc] f.ra 32 _ _ hb hr fun _ _ => rfl

/-- Settles O21: the four reductions are one operation with their lane value and combination, and it writes its result to every lane. -/
theorem vectorReductions : Obligations.VectorReductions := by
  intro s c t f hb hplain hr hfmt hD h21 h4 hra hrb el fold
  have hlegal : (f.plain && redFmt f.fmtS && f.fmtD == 0 && f.im 21 9 == 0 && f.im 4 0 == 0 && vok f.ra
      && decide (f.rb.toNat + f.nreg ≤ 16)) = true := by
    simp [hplain, hfmt, hD, h21, h4, hra, hrb]
  refine ⟨fun hrd => ⟨?sum, ?max, ?absMax⟩, fun hrd => ?dot⟩
  case sum => exact reduceOp_lanes _ s c t f _ false _ _ _ rfl rfl hb hr hlegal (by simp [hrd])
  case max => exact reduceOp_lanes _ s c t f _ false _ _ _ rfl rfl hb hr hlegal (by simp [hrd])
  case absMax => exact reduceOp_lanes _ s c t f _ false _ _ _ rfl rfl hb hr hlegal (by simp [hrd])
  case dot => exact reduceOp_lanes _ s c t f _ true _ _ _ rfl rfl hb hr hlegal (by simp [hrd])

end Sys2Proof.Machine
end

section
/-! PROOFS. What the shared operations of the matrix array change: partitions, entries and claims, the power state, the ends of
tracked operations, accumulator writes. -/

namespace Sys2Proof.Machine

/-! ## Reads after writes of a partition -/

theorem State.core_modArr (s : State) (c d : Nat) (f : ArrSt → ArrSt) :
    (s.modArr c f).core d = if d = c then { s.core c with arr := f (s.core c).arr } else s.core d := by
  simp [State.modArr, State.core_modCore]

theorem State.part_modPart (s : State) (c p d e : Nat) (f : PartSt → PartSt) :
    (s.modPart c p f).part d e = if d = c ∧ e = p then f (s.part c p) else s.part d e := by
  by_cases hd : d = c
  · subst hd
    simp [State.part, State.modPart, State.core_modArr, mapMod, mapGet_set]
  · simp [State.part, State.modPart, State.core_modArr, hd]

@[simp] theorem State.part_modPart_same (s : State) (c p : Nat) (f : PartSt → PartSt) : (s.modPart c p f).part c p = f (s.part c p) := by
  simp [State.part_modPart]

@[simp] theorem State.acc_modPart (s : State) (c p d : Nat) (f : PartSt → PartSt) :
    ((s.modPart c p f).core d).arr.acc = (s.core d).arr.acc := by
  by_cases hd : d = c <;> simp [State.modPart, State.core_modArr, hd]

@[simp] theorem State.thread_modPart (s : State) (c p d t : Nat) (f : PartSt → PartSt) : (s.modPart c p f).thread d t = s.thread d t := by
  by_cases hd : d = c <;> simp [State.thread, CoreSt.thread, State.modPart, State.core_modArr, hd]

/-- A change of the entries of an array leaves its partitions. -/
@[simp] theorem State.part_modAcc (s : State) (c d p : Nat) (g : ArrSt → Map Entry) :
    (s.modArr c fun a => { a with acc := g a }).part d p = s.part d p := by
  by_cases hd : d = c <;> simp [State.part, State.core_modArr, hd]

@[simp] theorem State.acc_setAcc (s : State) (c : Nat) (m : Map Entry) : ((s.modArr c fun a => { a with acc := m }).core c).arr.acc = m := by
  simp [State.core_modArr]

/-! ## Operations that leave partitions, entries and memory -/

/-- From `s` to `u` memory, the region table, the partitions and the entries of every array are the same. -/
structure ArraysKept (s u : State) : Prop where
  mem : u.mem = s.mem
  regions : u.regions = s.regions
  parts : ∀ d, (u.core d).arr.parts = (s.core d).arr.parts
  acc : ∀ d, (u.core d).arr.acc = (s.core d).arr.acc

namespace ArraysKept

theorem refl (s : State) : ArraysKept s s := ⟨rfl, rfl, fun _ => rfl, fun _ => rfl⟩

theorem trans {s u v : State} (h : ArraysKept s u) (k : ArraysKept u v) : ArraysKept s v :=
  ⟨k.mem.trans h.mem, k.regions.trans h.regions, fun d => (k.parts d).trans (h.parts d), fun d => (k.acc d).trans (h.acc d)⟩

theorem part {s u : State} (h : ArraysKept s u) (c p : Nat) : u.part c p = s.part c p := by
  rw [State.part, State.part, h.parts]

theorem byte {s u : State} (h : ArraysKept s u) (a : Nat) : u.byte a = s.byte a := State.byte_congr h.mem h.regions a

theorem bytes {s u : State} (h : ArraysKept s u) (a n : Nat) : u.bytes a n = s.bytes a n := State.bytes_congr h.mem h.regions a n

/-- An update of neither memory, regions nor cores. -/
theorem of_cores {s u : State} (hm : u.mem = s.mem) (hr : u.regions = s.regions) (hc : u.cores = s.cores) : ArraysKept s u :=
  have hcore d : u.core d = s.core d := by rw [State.core, State.core, hc]
  ⟨hm, hr, fun d => by rw [hcore], fun d => by rw [hcore]⟩

/-- An update of a core outside the partitions and entries of its array. -/
theorem of_modCore (s : State) (c : Nat) (f : CoreSt → CoreSt) (hp : (f (s.core c)).arr.parts = (s.core c).arr.parts)
    (ha : (f (s.core c)).arr.acc = (s.core c).arr.acc) : ArraysKept s (s.modCore c f) := by
  refine ⟨rfl, rfl, fun d => ?_, fun d => ?_⟩ <;> rw [State.core_modCore] <;> split
  · next h => rw [h, hp]
  · rfl
  · next h => rw [h, ha]
  · rfl

theorem modThread (s : State) (c t : Nat) (f : ThreadSt → ThreadSt) : ArraysKept s (s.modThread c t f) :=
  of_modCore s c (fun k => k.setThread t (f (s.thread c t))) rfl rfl

theorem modCst (s : State) (c : Nat) (f : CStat → CStat) : ArraysKept s (s.modCst c f) := of_modCore s c _ rfl rfl

theorem scan (s : State) (us : List Nat) (kind req : Nat) : ArraysKept s (s.scanUnits us kind req).1 :=
  have h := s.scanUnits_frame us kind req
  of_cores h.mem h.regions h.cores

theorem post (s : State) (h b i : Nat) (cls : EvClass) (code : Nat) (pl : List Byte) (m : Option (List Byte)) :
    ArraysKept s (s.post h b i cls code pl m) := by
  obtain ⟨ev, regs, e⟩ := s.post_frame h b i cls code pl m
  rw [e]
  exact of_cores rfl rfl rfl

theorem stepFault (s : State) (c src thr code : Nat) : ArraysKept s (s.stepFault c src thr code) := by
  obtain ⟨k, h, -, _, _, _, _, hk⟩ := s.stepFault_frame c src thr code
  rw [h]
  exact of_modCore s c (fun _ => k) (by rw [hk]) (by rw [hk])

theorem partFault (s : State) (c p bank m kind : Nat) : ArraysKept s (s.partFault c p bank m kind) :=
  (stepFault s c 1 0 0).trans (post _ _ _ _ _ _ _ _)

/-- The end of a tracked operation changes its thread and reports errors (R127). -/
theorem complete (s : State) (c : Nat) (tr : Track) (err : Bool) (cop : Nat) : ArraysKept s (s.complete c tr err cop) := by
  unfold State.complete
  extract_lets s1 s2
  have hcount : ArraysKept s s1 := by
    unfold s1
    split
    · exact modThread s c _ _
    · exact refl s
  have hfault : ArraysKept s s2 := hcount.trans (stepFault _ c 5 tr.thr 0)
  split
  · split
    · exact hfault
    · exact hfault.trans (post _ _ _ _ _ _ _ _)
  · exact hcount

/-- A change of power state changes the power state, its counter and its timer (R98, R103). -/
theorem pwrGo (s : State) (c : Nat) (st : ArrPwr) (level : Nat) : ArraysKept s (s.pwrGo c st level) := by
  unfold State.pwrGo
  extract_lets cfg t s1
  have h : ArraysKept s s1 := of_modCore s c _ rfl rfl
  split
  · exact h.trans (of_cores rfl rfl rfl)
  · exact h

theorem pwrIdle (s : State) (c : Nat) : ArraysKept s (s.pwrIdle c) := by
  unfold State.pwrIdle
  dsimp only
  split
  · split <;> exact pwrGo s c _ _
  · exact refl s

theorem pwrRow (s : State) (c : Nat) : ArraysKept s (s.pwrRow c) := by
  unfold State.pwrRow
  dsimp only
  split
  · split <;> exact pwrGo s c _ _
  · exact pwrGo s c _ _
  · split <;> exact pwrGo s c _ _
  · exact refl s

end ArraysKept

/-! ## The thread of an operation that ends (R108, R127) -/

@[simp] theorem ThreadSt.sreg_endCheck (x : ThreadSt) (r : BitVec 5) : x.endCheck.sreg r = x.sreg r := by
  unfold ThreadSt.endCheck
  split <;> rfl

/-- A thread that has not become IDLE keeps its counters at the check of its end. -/
theorem ThreadSt.wait_endCheck (x : ThreadSt) (i : Nat) (h : x.endCheck.st ≠ .idle) : x.endCheck.wait i = x.wait i := by
  unfold ThreadSt.endCheck at h ⊢
  split
  · next he => rw [if_pos he] at h; exact absurd rfl h
  · rfl

@[simp] theorem State.thread_post (s : State) (h b i : Nat) (cls : EvClass) (code : Nat) (pl : List Byte) (m : Option (List Byte))
    (c t : Nat) : (s.post h b i cls code pl m).thread c t = s.thread c t := by
  obtain ⟨ev, regs, e⟩ := s.post_frame h b i cls code pl m
  rw [e]
  rfl

@[simp] theorem State.thread_pwrGo (s : State) (c : Nat) (st : ArrPwr) (level d t : Nat) : (s.pwrGo c st level).thread d t = s.thread d t := by
  unfold State.pwrGo
  extract_lets cfg tm s1
  have h : s1.thread d t = s.thread d t := by
    by_cases hd : d = c <;> simp [s1, State.thread, CoreSt.thread, State.core_modArr, hd]
  split <;> exact h

@[simp] theorem State.thread_pwrIdle (s : State) (c d t : Nat) : (s.pwrIdle c).thread d t = s.thread d t := by
  unfold State.pwrIdle
  dsimp only
  split
  · split <;> exact s.thread_pwrGo c _ _ d t
  · rfl

/-- A tracked operation that ends takes 1 from its counter, and its thread may end with it (R108, R127). -/
theorem State.thread_complete (s : State) (c : Nat) (tr : Track) (err : Bool) (cop : Nat) :
    (s.complete c tr err cop).thread c tr.thr =
      if tr.wen then ((s.thread c tr.thr).setWait tr.wctr
        ⟨((s.thread c tr.thr).wait tr.wctr).n - 1, ((s.thread c tr.thr).wait tr.wctr).err || err⟩).endCheck
      else s.thread c tr.thr := by
  cases hw : tr.wen <;> cases err <;> simp [State.complete, hw, State.thread_stepFault, State.thread_modThread]

/-! ## Accumulator entries and cells written in one step -/

/-- Writes of one value for each key: what stands at a key that some of them write, and at any other. -/
theorem mapGet_foldl_set {α β : Type} [DecidableEq α] (d : α) (key : β → Nat) (val : β → α) (k : Nat) (v : α) (l : List β) (m : Map α)
    (h : ∀ x, x ∈ l → key x = k → val x = v) :
    mapGet d (l.foldl (fun m x => mapSet d m (key x) (val x)) m) k = if ∃ x, x ∈ l ∧ key x = k then v else mapGet d m k := by
  induction l generalizing m with
  | nil => simp
  | cons x r ih =>
    rw [List.foldl_cons, ih _ fun y hy => h y (List.mem_cons_of_mem x hy), mapGet_set]
    by_cases hx : k = key x
    · simp [← hx, h x List.mem_cons_self hx.symm]
    · simp [hx, Ne.symm hx]

theorem eq_of_nodup_map {α β : Type} (f : α → β) (l : List α) (hn : (l.map f).Nodup) {x y : α} (hx : x ∈ l) (hy : y ∈ l) (e : f x = f y) :
    x = y := by
  induction l with
  | nil => cases hx
  | cons a l ih =>
    rw [List.map_cons, List.nodup_cons] at hn
    obtain ⟨ha, hl⟩ := hn
    have hfresh : ∀ z, z ∈ l → f z ≠ f a := fun z hz h => ha (h ▸ List.mem_map_of_mem hz)
    cases hx with
    | head =>
      cases hy with
      | head => rfl
      | tail _ hy => exact absurd e.symm (hfresh y hy)
    | tail _ hx =>
      cases hy with
      | head => exact absurd e (hfresh x hx)
      | tail _ hy => exact ih hl hx hy

/-- With a key of its own for each value, every value stands at its key. -/
theorem mapGet_foldl_set_mem {α β : Type} [DecidableEq α] (d : α) (key : β → Nat) (val : β → α) (l : List β) (m : Map α)
    (hn : (l.map key).Nodup) (x : β) (hx : x ∈ l) :
    mapGet d (l.foldl (fun m x => mapSet d m (key x) (val x)) m) (key x) = val x := by
  rw [mapGet_foldl_set d key val (key x) (val x) l m fun y hy e => by rw [eq_of_nodup_map key l hn hy hx e]]
  exact if_pos ⟨x, hx, rfl⟩

theorem mapGet_foldl_set_other {α β : Type} [DecidableEq α] (d : α) (key : β → Nat) (val : β → α) (l : List β) (m : Map α) (k : Nat)
    (hk : ∀ x, x ∈ l → k ≠ key x) : mapGet d (l.foldl (fun m x => mapSet d m (key x) (val x)) m) k = mapGet d m k := by
  rw [mapGet_foldl_set d key val k d l m fun y hy e => absurd e.symm (hk y hy)]
  exact if_neg fun ⟨x, hx, e⟩ => hk x hx e.symm

theorem mem_maskRows (mask r : Nat) : r ∈ maskRows mask ↔ r < 32 ∧ mask.testBit r = true := by
  rw [maskRows, List.mem_filter, mem_upto]

/-- The cells of a tile written row by row: the rows of the mask and the columns `n0` to `n0 + w - 1` take their values (R48, R76). -/
theorem mapGet_tileRows (cell : Nat → Nat → BitVec 128) (mask n0 w r j : Nat) (m : Map (BitVec 128)) (hw : n0 + w ≤ 32) (hr : r < 32)
    (hj : j < w) :
    mapGet 0 ((maskRows mask).foldl (fun m r => (upto w).foldl (fun m j => mapSet 0 m (tileKey r (n0 + j)) (cell r j)) m) m)
      (tileKey r (n0 + j)) = if mask.testBit r then cell r j else mapGet 0 m (tileKey r (n0 + j)) := by
  have hpairs : (maskRows mask).foldl (fun m r => (upto w).foldl (fun m j => mapSet 0 m (tileKey r (n0 + j)) (cell r j)) m) m
      = ((maskRows mask).flatMap fun r => (upto w).map (r, ·)).foldl (fun m x => mapSet 0 m (tileKey x.1 (n0 + x.2)) (cell x.1 x.2)) m := by
    simp only [List.foldl_flatMap, List.foldl_map]
  have hmem : ∀ a b, (a, b) ∈ ((maskRows mask).flatMap fun r => (upto w).map (r, ·)) ↔ (a < 32 ∧ mask.testBit a = true) ∧ b < w := by
    simp [List.mem_flatMap, mem_maskRows, mem_upto]
  have hkey : ∀ a b, b < w → tileKey a (n0 + b) = tileKey r (n0 + j) → a = r ∧ b = j := by
    unfold tileKey
    omega
  rw [hpairs, mapGet_foldl_set 0 (fun x : Nat × Nat => tileKey x.1 (n0 + x.2)) (fun x => cell x.1 x.2) _ (cell r j)]
  · by_cases hbit : mask.testBit r = true
    · rw [if_pos hbit]
      exact if_pos ⟨(r, j), (hmem r j).mpr ⟨⟨hr, hbit⟩, hj⟩, rfl⟩
    · rw [if_neg hbit]
      refine if_neg fun ⟨⟨a, b⟩, hx, e⟩ => hbit ?_
      obtain ⟨⟨-, ha⟩, hb⟩ := (hmem a b).mp hx
      exact (hkey a b hb e).1 ▸ ha
  · rintro ⟨a, b⟩ hx e
    obtain ⟨rfl, rfl⟩ := hkey a b ((hmem a b).mp hx).2 e
    rfl

end Sys2Proof.Machine
end

section
/-! PROOFS. The operations of the matrix array: loads, passes, drains, the maximum, flag reads and seeds (R48, R71 to R90, R115). -/

namespace Sys2Proof.Machine

section
variable {s : State} {c : CoreId} {p : PartId}

theorem aloadStart_loads {o : ArrOp} {r : List ArrOp} (hq : (s.part c p).queue = o :: r) (hrun : s.arrRuns c = true) (hk : o.kind = .aload)
    (hl : (s.part c p).load = none) :
    ∃ u, exec (.aloadStart c p) s = .next u ∧ (u.part c p).queue = r ∧ (u.part c p).load = some o ∧ u.mem = s.mem := by
  have hexec : exec (.aloadStart c p) s = .next ((s.modPart c p fun q => { q with queue := r, load := some o }).pwrIdle c) := by
    show execAloadStart c p s = _
    simp [execAloadStart, hq, hrun, hk, hl]
  have hkept := ArraysKept.pwrIdle (s.modPart c p fun q => { q with queue := r, load := some o }) c
  exact ⟨_, hexec, by simp [hkept.part], by simp [hkept.part], hkept.mem⟩

/-- The cells are read after the correction and report of memory errors, which change no byte (R76, R182). -/
theorem aloadDone_writes {o : ArrOp} (hl : (s.part c p).load = some o) (hp : partHas (s.core c).arr.mode p = true) :
    let q := s.part c p
    let mode := (s.core c).arr.mode
    let bits := inBits o.fmt
    let row := fun k => s.bytes (o.addr + k * o.stride) (partW mode * bits / 8)
    ∃ u, exec (.aloadDone c p) s = .next u ∧ (u.part c p).load = none ∧ (u.part c p).shd.fmt = some o.fmt ∧ u.mem = s.mem
      ∧ (u.part c p).act = q.act
      ∧ (∀ r j, r < 32 → j < partW mode → mapGet 0 (u.part c p).shd.cells (tileKey r (p * partW mode + j))
          = if o.mask.testBit r then cellBits row bits (cellE bits) r j else mapGet 0 q.shd.cells (tileKey r (p * partW mode + j)))
      ∧ (o.tr.wen = true → (u.thread c o.tr.thr).st ≠ .idle →
          ((u.thread c o.tr.thr).wait o.tr.wctr).n = ((s.thread c o.tr.thr).wait o.tr.wctr).n - 1) := by
  intro q mode bits row
  have hexec : exec (.aloadDone c p) s = execAloadDone c p s := rfl
  unfold execAloadDone at hexec
  rw [hl] at hexec
  dsimp -zeta only at hexec
  extract_lets w n0 e ks u1 u2 r row' t0 cells par scs at hexec
  have hscan : ArraysKept s r.1 := .scan s _ _ _
  have hrow : row' = row := funext fun k => hscan.bytes _ _
  have hdone := ArraysKept.complete (r.1.modPart c p fun q => { q with load := none, shd := ⟨some o.fmt, cells, par, scs⟩ })
    c o.tr r.2 (classOp 2 1)
  have hw : p * partW mode + partW mode ≤ 32 := by
    have hcols := of_decide_eq_true hp
    rwa [Nat.succ_mul] at hcols
  refine ⟨_, hexec, by simp [hdone.part], by simp [hdone.part], hdone.mem.trans hscan.mem, by simp [hdone.part, hscan.part, q], ?cells, ?thread⟩
  case cells =>
    intro a j ha hj
    rw [hdone.part, State.part_modPart_same, ← hrow]
    exact mapGet_tileRows (cellBits row' bits e) o.mask n0 w a j _ hw ha hj
  case thread =>
    intro hwen
    rw [State.thread_complete, if_pos hwen]
    intro hidle
    rw [ThreadSt.wait_endCheck _ _ hidle, ThreadSt.wait_setWait, if_pos rfl, State.thread_modPart]
    rw [State.thread, State.thread, State.core, State.core, (s.scanUnits_frame (u1 ++ u2) 0 c).cores]

theorem streamScaleRead_appends {o : ArrOp} (hf : (s.part c p).queue.find? (fun o => decide (o.kind = .astream) && isMx o.fmtA
      && !((s.part c p).sscale.any fun e => e.1 == o.id)) = some o) (hrun : s.arrRuns c = true) (hlen : (s.part c p).sscale.length < 2) :
    ∃ u b, exec (.streamScaleRead c p) s = .next u ∧ u.mem = s.mem
      ∧ (u.part c p).sscale = (s.part c p).sscale ++ [(o.id, s.bytes o.saddr (o.mcount * (passK (inBits o.fmtA) / 32)), b)] := by
  have hexec : exec (.streamScaleRead c p) s = execStreamScaleRead c p s := rfl
  unfold execStreamScaleRead at hexec
  extract_lets q at hexec
  rw [hf] at hexec
  dsimp only at hexec
  rw [if_pos ⟨hrun, hlen⟩] at hexec
  have hscan := ArraysKept.scan s (s.unitsOf o.saddr (o.mcount * (passK (inBits o.fmtA) / 32))) 0 c
  refine ⟨_, (s.read o.saddr (o.mcount * (passK (inBits o.fmtA) / 32)) 0 c).2.2, hexec, hscan.mem, ?_⟩
  simp [State.read, hscan.part, hscan.bytes]

/-! ## Passes (R71 to R82) -/

@[simp] theorem PartSt.raiseIf_queue (q : PartSt) (b : Bool) (i : Nat) : (q.raiseIf b i).queue = q.queue := by
  unfold PartSt.raiseIf; split <;> rfl

@[simp] theorem PartSt.raiseIf_rows (q : PartSt) (b : Bool) (i : Nat) : (q.raiseIf b i).rows = q.rows := by
  unfold PartSt.raiseIf; split <;> rfl

@[simp] theorem PartSt.raiseIf_drains (q : PartSt) (b : Bool) (i : Nat) : (q.raiseIf b i).drains = q.drains := by
  unfold PartSt.raiseIf; split <;> rfl

theorem rowCol_col (o : ArrOp) (t : Tile) (row : Nat → List Byte) (ssc : Nat → Nat) (n : Nat) : (rowCol o t row ssc n).col = n := rfl

theorem astreamRowIssue_issues {z : Pass} {fresh : Bool} (u : Option Parity) (hn : (s.part c p).nextPass = some (z, fresh))
    (hrun : s.arrRuns c = true) (hh : (s.part c p).heldRow z.op z.issued = false) :
    ∃ v r, exec (.astreamRowIssue c p u) s = .next v ∧ (v.part c p).rows = (s.part c p).aged z.op z.issued ++ [r] ∧ r.bank = z.op.bank
      ∧ r.anchor = z.op.anchor ∧ r.mrow = z.op.mbase + z.issued ∧ r.accInit = z.op.accInit
      ∧ r.cols.map (·.col) = maskCols (s.core c).arr.mode p z.op.colMask
      ∧ (v.core c).arr.acc = (s.core c).arr.acc ∧ v.mem = s.mem
      ∧ (fresh = true → (v.part c p).queue = (s.part c p).queue.drop 1) := by
  have hexec : exec (.astreamRowIssue c p u) s = execAstreamRowIssue c p u s := rfl
  unfold execAstreamRowIssue at hexec
  extract_lets q mode s0 at hexec
  rw [hn] at hexec
  dsimp -zeta only at hexec
  rw [if_neg (by simp [hrun, q, hh])] at hexec
  extract_lets cols kb q1 tile hit us rd row sc ssc scErr ir z1 passes sscale s2 s3 at hexec
  have hread : ArraysKept s rd.1 := (ArraysKept.pwrRow s c).trans (.scan _ us 0 c)
  have hfault : ArraysKept s2 s3 := by
    unfold s3
    split
    · exact .partFault _ _ _ _ _ _
    · exact .refl _
  have hend : ArraysKept s2 (s3.pwrIdle c) := hfault.trans (.pwrIdle s3 c)
  have hcols : ir.cols.map (·.col) = cols := by simp [ir, Function.comp_def, rowCol_col]
  refine ⟨_, ir, hexec, ?rows, rfl, rfl, rfl, rfl, hcols, ?acc, hend.mem.trans hread.mem, ?queue⟩
  case rows => simp [hend.part, s2, q]
  case acc => rw [hend.acc, State.acc_modPart, hread.acc]
  case queue =>
    intro hfresh
    simp [hend.part, s2, q1, hfresh, q]

/-- As rows age, no row changes its bank. -/
theorem ageTo_map_bank (i n : Nat) (l : List InRow) : (ageTo i n l).map (·.bank) = l.map (·.bank) := by
  have hsplit := congrArg (List.map (·.bank)) (List.take_append_drop (i + 1) l)
  rw [List.map_append] at hsplit
  rw [ageTo, List.map_append, List.map_map]
  exact hsplit

theorem ageTo_length (i n : Nat) (l : List InRow) : (ageTo i n l).length = l.length := by
  simpa using congrArg List.length (ageTo_map_bank i n l)

/-- The row of a bank that writes next is in flight. -/
theorem PartSt.nextWrite_getElem (q : PartSt) (b i : Nat) (r : InRow) (h : q.nextWrite b = some (i, r)) :
    ∃ hi : i < q.rows.length, q.rows[i] = r ∧ r.bank = b := by
  unfold PartSt.nextWrite at h
  split at h
  · cases h
  · next k hk =>
    have hbank := List.find?_some hk
    split at h
    · next r' hr =>
      split at h
      · cases h
        rw [hr] at hbank
        obtain ⟨hi, he⟩ := List.getElem?_eq_some_iff.mp hr
        exact ⟨hi, he, by simpa using hbank⟩
      · cases h
    · cases h

theorem length_filter_eraseIdx {α : Type} (f : α → Bool) (l : List α) (i : Nat) (hi : i < l.length) (h : f l[i] = true) :
    ((l.eraseIdx i).filter f).length + 1 = (l.filter f).length := by
  induction l generalizing i with
  | nil => cases hi
  | cons a l ih =>
    cases i with
    | zero =>
      have ha : f a = true := h
      rw [List.eraseIdx_cons_zero, List.filter_cons_of_pos ha, List.length_cons]
    | succ i =>
      have ih := ih i (Nat.lt_of_succ_lt_succ hi) h
      rw [List.eraseIdx_cons_succ]
      by_cases ha : f a = true
      · rw [List.filter_cons_of_pos ha, List.filter_cons_of_pos ha, List.length_cons, List.length_cons, ih]
      · rw [List.filter_cons_of_neg ha, List.filter_cons_of_neg ha, ih]

/-- Without the row that writes, one row fewer is in flight into its bank. -/
theorem inflight_eraseIdx (l : List InRow) (b i n : Nat) (hi : i < l.length) (hb : l[i].bank = b) :
    (((ageTo i n l).eraseIdx i).filter fun r => r.bank == b).length + 1 = (l.filter fun r => r.bank == b).length := by
  have hcount : ∀ m : List InRow, (m.filter fun r => r.bank == b).length = ((m.map (·.bank)).filter (· == b)).length := by
    intro m
    rw [List.filter_map, List.length_map]
    rfl
  have hi' : i < (ageTo i n l).length := by rwa [ageTo_length]
  have hget : ((ageTo i n l).map (·.bank))[i]? = some b := by
    rw [ageTo_map_bank, List.getElem?_map, List.getElem?_eq_getElem hi, Option.map_some, hb]
  rw [List.getElem?_map, List.getElem?_eq_getElem hi', Option.map_some] at hget
  rw [length_filter_eraseIdx (fun r : InRow => r.bank == b) _ i hi' (beq_iff_eq.mpr (Option.some.inj hget)), hcount, ageTo_map_bank, ← hcount]

theorem accKey_injective (bank m : Nat) : Function.Injective (accKey bank m) := by
  intro a b h
  unfold accKey at h
  omega

theorem astreamRowWrite_writes {b : BankId} {i : Nat} {r : InRow} (hn : (s.part c p).nextWrite b = some (i, r))
    (hcols : (r.cols.map (·.col)).Nodup) :
    ∃ u, exec (.astreamRowWrite c p ⟨b, []⟩) s = .next u ∧ (u.part c p).rows.length + 1 = (s.part c p).rows.length ∧ u.mem = s.mem
      ∧ (u.part c p).inflight b + 1 = (s.part c p).inflight b
      ∧ (∀ x, x ∈ r.cols → mapGet {} (u.core c).arr.acc (accKey r.bank r.mrow x.col)
          = ((mapGet {} (s.core c).arr.acc (accKey r.bank r.mrow x.col) : Entry).addRow r.accInit r.wide r.anchor x).1)
      ∧ (∀ k, (∀ x, x ∈ r.cols → k ≠ accKey r.bank r.mrow x.col) →
          mapGet {} (u.core c).arr.acc k = (mapGet {} (s.core c).arr.acc k : Entry)) := by
  obtain ⟨hi, hget, hbank⟩ := (s.part c p).nextWrite_getElem b i r hn
  have hexec : exec (.astreamRowWrite c p ⟨b, []⟩) s = execAstreamRowWrite c p ⟨b, []⟩ s := rfl
  unfold execAstreamRowWrite at hexec
  extract_lets q acc at hexec
  rw [hn] at hexec
  dsimp -zeta only at hexec
  extract_lets met res acc1 bad ends passes q1 q2 s1 s2 at hexec
  have hmet : ∀ x, met x = .ok := fun x => ite_self _
  have hs2 : s2 = s1 := List.foldlRecOn (motive := (· = s1)) r.cols _ rfl fun x hx n _ => by
    rw [hx, hmet]
    rfl
  have hacc1 : acc1 = r.cols.foldl (fun m x => mapSet {} m (accKey r.bank r.mrow x.col)
      ((mapGet {} acc (accKey r.bank r.mrow x.col) : Entry).addRow r.accInit r.wide r.anchor x).1) acc := by
    simp only [acc1, res, List.foldl_map, hmet, AccErr.apply]
  have hkeys : (r.cols.map fun x => accKey r.bank r.mrow x.col).Nodup :=
    List.pairwise_map.mpr ((List.pairwise_map.mp hcols).imp fun hne e => hne (accKey_injective r.bank r.mrow e))
  obtain ⟨u, hu, hkept⟩ : ∃ u, exec (.astreamRowWrite c p ⟨b, []⟩) s = .next u ∧ ArraysKept s1 u := by
    rw [hexec, ← hs2]
    split
    · exact ⟨_, rfl, (ArraysKept.complete _ _ _ _ _).trans (.pwrIdle _ _)⟩
    · exact ⟨_, rfl, .refl _⟩
  have hrows : (u.part c p).rows = (ageTo i r.lat q.rows).eraseIdx i := by
    simp [hkept.part, s1, q2, q1]
  have hacc : (u.core c).arr.acc = acc1 := by simp [hkept.acc, s1]
  refine ⟨u, hu, ?length, hkept.mem, ?inflight, fun x hx => ?written, fun k hk => ?other⟩
  case length =>
    rw [hrows, ← ageTo_length i r.lat q.rows]
    rw [← ageTo_length i r.lat q.rows] at hi
    rw [List.length_eraseIdx_of_lt hi]
    exact Nat.sub_add_cancel (Nat.one_le_of_lt hi)
  case inflight =>
    rw [PartSt.inflight, hrows]
    exact inflight_eraseIdx q.rows b i r.lat hi (by rw [hget, hbank])
  case written =>
    rw [hacc, hacc1]
    exact mapGet_foldl_set_mem {} (fun x : RowCol => accKey r.bank r.mrow x.col) _ r.cols acc hkeys x hx
  case other =>
    rw [hacc, hacc1]
    exact mapGet_foldl_set_other {} (fun x : RowCol => accKey r.bank r.mrow x.col) _ r.cols acc k hk

/-! ## Drains, flag reads and seeds that start (R84, R88, R90, R115) -/

theorem adrainStart_starts {o : ArrOp} {r : List ArrOp} (hq : (s.part c p).queue = o :: r) (hrun : s.arrRuns c = true)
    (hi : (s.part c p).allIssued = true) (hk : o.kind = .adrain) :
    ∃ u, exec (.adrainStart c p) s = .next u ∧ (u.part c p).queue = r
      ∧ (u.part c p).drains = (s.part c p).drains ++ [{ op := o, todo := drainOuts (s.core c).arr.mode p o }] ∧ u.mem = s.mem := by
  have hexec : exec (.adrainStart c p) s = .next ((s.modPart c p fun q =>
      { q with queue := r, drains := q.drains ++ [{ op := o, todo := drainOuts (s.core c).arr.mode p o }] }).pwrIdle c) := by
    show execAdrainStart c p s = _
    simp [execAdrainStart, hq, hrun, hi, hk]
  have hkept := ArraysKept.pwrIdle (s.modPart c p fun q =>
    { q with queue := r, drains := q.drains ++ [{ op := o, todo := drainOuts (s.core c).arr.mode p o }] }) c
  exact ⟨_, hexec, by simp [hkept.part], by simp [hkept.part], hkept.mem⟩

theorem aseedStart_starts {o : ArrOp} {r : List ArrOp} (hq : (s.part c p).queue = o :: r) (hrun : s.arrRuns c = true)
    (hi : (s.part c p).allIssued = true) (hk : o.kind = .aseed)
    (hd : ∀ d, d ∈ (s.part c p).drains → d.op.bank = o.bank → d.read = true) :
    ∃ u, exec (.aseedStart c p) s = .next u ∧ (u.part c p).queue = r ∧ (u.part c p).seeds = (s.part c p).seeds ++ [o] ∧ u.mem = s.mem := by
  have hdrains : ((s.part c p).drains.all fun d => d.op.bank != o.bank || d.read) = true := by
    rw [List.all_eq_true]
    intro d hmem
    by_cases hb : d.op.bank = o.bank <;> simp [hb, hd d hmem]
  have hexec : exec (.aseedStart c p) s = .next ((s.modPart c p fun q => { q with queue := r, seeds := q.seeds ++ [o] }).pwrIdle c) := by
    show execAseedStart c p s = _
    simp only [execAseedStart, hq, hrun, hi, hk, hdrains, and_self, if_true]
  have hkept := ArraysKept.pwrIdle (s.modPart c p fun q => { q with queue := r, seeds := q.seeds ++ [o] }) c
  exact ⟨_, hexec, by simp [hkept.part], by simp [hkept.part], hkept.mem⟩

theorem State.sreg_complete (s : State) (c : Nat) (tr : Track) (err : Bool) (cop : Nat) (r : BitVec 5) :
    ((s.complete c tr err cop).thread c tr.thr).sreg r = (s.thread c tr.thr).sreg r := by
  rw [State.thread_complete]
  split
  · rw [ThreadSt.sreg_endCheck]
    rfl
  · rfl

/-- The end of the AFLAG and the power state after it leave the register and the flags that the row has written (R115). -/
theorem aflagDone_reads {o : ArrOp} {r : List ArrOp} (hq : (s.part c p).queue = o :: r) (hrun : s.arrRuns c = true)
    (hk : o.kind = .aflag) (hl : (s.part c p).load = none) (hpass : (s.part c p).passes = []) (hrows : (s.part c p).rows = [])
    (hd : (s.part c p).drains = []) (hs : (s.part c p).seeds = []) (hdest : o.dest < 32) :
    ∃ u, exec (.aflagDone c p) s = .next u ∧ (u.part c p).queue = r
      ∧ (u.part c p).flags = (s.part c p).flags &&& ~~~(BitVec.ofNat 7 o.clearMask)
      ∧ (u.thread c o.tr.thr).sreg (BitVec.ofNat 5 o.dest) = (if o.dest = 0 then 0 else (s.part c p).flags.setWidth 64) ∧ u.mem = s.mem := by
  have hexec : exec (.aflagDone c p) s = execAflagDone c p s := rfl
  unfold execAflagDone at hexec
  extract_lets q at hexec
  rw [hq] at hexec
  dsimp -zeta only at hexec
  rw [if_pos ⟨hrun, hk, hl, hpass, hrows, hd, hs⟩] at hexec
  extract_lets s1 s2 at hexec
  have hkept : ArraysKept s1 ((s2.complete c o.tr false (classOp 2 4)).pwrIdle c) :=
    ((ArraysKept.modThread s1 c o.tr.thr _).trans (.complete s2 c o.tr false _)).trans (.pwrIdle _ c)
  have hzero : BitVec.ofNat 5 o.dest = 0 ↔ o.dest = 0 := by
    rw [← BitVec.toNat_inj, BitVec.toNat_ofNat, Nat.mod_eq_of_lt hdest]
    rfl
  have hreg : ∀ x : ThreadSt, (x.setS (BitVec.ofNat 5 o.dest) (q.flags.setWidth 64)).sreg (BitVec.ofNat 5 o.dest)
      = if o.dest = 0 then 0 else q.flags.setWidth 64 := by
    intro x
    rw [ThreadSt.sreg_setS]
    by_cases h0 : o.dest = 0
    · simp [h0, ThreadSt.sreg]
    · rw [if_pos ⟨rfl, fun h => h0 (hzero.mp h)⟩, if_neg h0]
  refine ⟨_, hexec, by simp [hkept.part, s1], by simp [hkept.part, s1], ?reg, hkept.mem⟩
  case reg =>
    rw [State.thread_pwrIdle, State.sreg_complete, State.thread_modThread, if_pos ⟨rfl, rfl⟩, hreg]

/-! ## Drains and the maximum (R85 to R88, R115) -/

theorem Stored.cores {s u : State} (h : Stored s u) : u.cores = s.cores := by
  obtain ⟨_, _, _, _, _, _, rfl⟩ := h
  rfl

theorem Stored.regions {s u : State} (h : Stored s u) : u.regions = s.regions := by
  obtain ⟨_, _, _, _, _, _, rfl⟩ := h
  rfl

theorem Stored.core {s u : State} (h : Stored s u) (c : Nat) : u.core c = s.core c := by
  rw [State.core, State.core, h.cores]

theorem Stored.part {s u : State} (h : Stored s u) (c p : Nat) : u.part c p = s.part c p := by
  rw [State.part, State.part, h.core]

theorem PartSt.setClaim_drains (q : PartSt) (b : Nat) (v : Option Claim) : (q.setClaim b v).drains = q.drains := by
  unfold PartSt.setClaim
  split <;> rfl

/-- The clear of a bank leaves the drains in progress. -/
theorem State.drains_clearBank (s : State) (c p b : Nat) : ((s.clearBank c p b).part c p).drains = (s.part c p).drains := by
  unfold State.clearBank
  extract_lets mode w s1
  rw [State.part_modPart_same, PartSt.setClaim_drains]
  simp [s1]

/-- A drain that is replaced by one of its number leaves the others. -/
theorem PartSt.filter_setDrain (q : PartSt) (d : Drain) :
    ((q.setDrain d).drains.filter fun e => e.op.id != d.op.id) = q.drains.filter fun e => e.op.id != d.op.id := by
  unfold PartSt.setDrain
  dsimp only
  induction q.drains with
  | nil => rfl
  | cons e l ih => by_cases he : e.op.id = d.op.id <;> simp [he, ih]

theorem PartSt.mem_setDrain (q : PartSt) (d e : Drain) (hm : e ∈ q.drains) (hid : e.op.id = d.op.id) : d ∈ (q.setDrain d).drains :=
  List.mem_map.mpr ⟨e, hm, if_pos hid⟩

/-- The end of a drain takes it from its partition and, apart from that, keeps the arrays (R115). -/
theorem ArraysKept.drainEnd (s : State) (c p : Nat) (d : Drain) (err : Bool) :
    ArraysKept (s.modPart c p fun q => { q with drains := q.drains.filter fun e => e.op.id != d.op.id }) (s.drainEnd c p d err) :=
  (ArraysKept.complete _ c d.op.tr err _).trans (.pwrIdle _ c)

/-- After the last output a drain is marked as read, or without AMAX_ADDR it ends; memory is as it was (R88, R115). -/
theorem State.drainRead_drains (s : State) (c p : Nat) (d : Drain) :
    (s.drainRead c p d).mem = s.mem ∧ (s.drainRead c p d).regions = s.regions
      ∧ ((s.drainRead c p d).part c p).drains =
        if d.op.amax = 0 then (s.part c p).drains.filter fun e => e.op.id != d.op.id
        else ((s.part c p).setDrain { d with read := true }).drains := by
  unfold State.drainRead
  extract_lets d1 s1 s2
  have hs2 : s2.mem = s.mem ∧ s2.regions = s.regions ∧ (s2.part c p).drains = ((s.part c p).setDrain d1).drains := by
    unfold s2
    split
    · exact ⟨rfl, rfl, by rw [State.drains_clearBank]; simp [s1]⟩
    · exact ⟨rfl, rfl, by simp [s1]⟩
  obtain ⟨hmem, hregions, hdrains⟩ := hs2
  split
  · have hend := ArraysKept.drainEnd s2 c p d1 d1.err
    refine ⟨hend.mem.trans hmem, hend.regions.trans hregions, ?_⟩
    rw [hend.part, State.part_modPart_same, hdrains]
    exact (s.part c p).filter_setDrain d1
  · exact ⟨hmem, hregions, hdrains⟩

theorem PartSt.reading_mem (q : PartSt) (b : Nat) (d : Drain) (h : q.reading b = some d) : d ∈ q.drains ∧ d.read = false := by
  unfold PartSt.reading at h
  split at h
  · have hp := List.find?_some h
    exact ⟨List.mem_of_find?_eq_some h, by simpa using (Bool.and_eq_true_iff.mp hp).2⟩
  · cases h

theorem drainOutputWrite_writes {b : BankId} {d : Drain} {j n : Nat} {rest : List (Nat × Nat)} (hd : (s.part c p).reading b = some d)
    (ht : d.todo = (j, n) :: rest) :
    let q := s.part c p
    let o := d.op
    let x : Entry := mapGet {} (s.core c).arr.acc (accKey o.bank (o.mbase + j) n)
    let r := drainConv o (x.value (q.bankWide o.bank))
    let a := o.addr + j * o.stride + (n - p * partW (s.core c).arr.mode) * (elemBits o.outFmt / 8)
    inSlice c a r.1.length = true →
    ∃ u, exec (.drainOutputWrite c p ⟨b, .ok⟩) s = .next u
      ∧ (∀ y, y < a ∨ a + r.1.length ≤ y → u.byte y = s.byte y) ∧ (s.ecc = [] → u.bytes a r.1.length = r.1)
      ∧ (rest ≠ [] → (∃ e, e ∈ (u.part c p).drains ∧ e.op = o ∧ e.todo = rest ∧ e.read = false)
          ∧ (u.core c).arr.acc = (s.core c).arr.acc)
      ∧ (rest = [] → o.amax = 0 → (u.part c p).drains = q.drains.filter fun e => e.op.id != o.id)
      ∧ (rest = [] → o.amax ≠ 0 → ∃ e, e ∈ (u.part c p).drains ∧ e.op = o ∧ e.read = true) := by
  intro q o x r a ha
  have hslice := inSlice_le c a _ ha
  obtain ⟨hmemd, hread⟩ := q.reading_mem b d hd
  have hexec : exec (.drainOutputWrite c p ⟨b, .ok⟩) s = execDrainOutputWrite c p ⟨b, .ok⟩ s := rfl
  unfold execDrainOutputWrite at hexec
  extract_lets at hexec
  rw [hd] at hexec
  dsimp -zeta only at hexec
  rw [ht] at hexec
  dsimp -zeta only at hexec
  extract_lets x' v r' s1 wr s2 amax d1 s3 at hexec
  have hstored : Stored s wr.1 := stored_write s a r.1 c
  have hs2 : ArraysKept wr.1 s2 := by
    unfold s2
    split
    · exact .modCst _ _ _
    · exact .refl _
  have hother : ∀ y, y < a ∨ a + r.1.length ≤ y → wr.1.byte y = s.byte y := fun y hy => s.byte_write_other a y c r.1 hslice hy
  have hwritten : s.ecc = [] → wr.1.bytes a r.1.length = r.1 := by
    intro hecc
    have hwr : wr = (s.store a r.1, false) := s.write_clean a r.1 c hecc
    rw [hwr]
    exact s.bytes_store a r.1 hslice
  have hdrains : (s3.part c p).drains = (q.setDrain d1).drains := by
    simp [s3, PartSt.setDrain, hs2.part, hstored.part, q]
  have hmemd1 : d1 ∈ (q.setDrain d1).drains := q.mem_setDrain d1 d hmemd rfl
  by_cases hrest : rest = []
  · rw [if_pos hrest] at hexec
    obtain ⟨hmem, hregions, hend⟩ := s3.drainRead_drains c p d1
    have hmem : (s3.drainRead c p d1).mem = wr.1.mem := hmem.trans hs2.mem
    have hregions : (s3.drainRead c p d1).regions = wr.1.regions := hregions.trans hs2.regions
    refine ⟨_, hexec, fun y hy => (State.byte_congr hmem hregions y).trans (hother y hy),
      fun hecc => (State.bytes_congr hmem hregions a _).trans (hwritten hecc), fun h => absurd hrest h, fun _ h0 => ?ends, fun _ h0 => ?stays⟩
    case ends =>
      rw [hend, if_pos h0, hdrains]
      exact q.filter_setDrain d1
    case stays =>
      rw [hend, if_neg h0]
      exact ⟨{ d1 with read := true }, PartSt.mem_setDrain _ { d1 with read := true } d1 (hdrains ▸ hmemd1) rfl, rfl, rfl⟩
  · rw [if_neg hrest] at hexec
    refine ⟨_, hexec, fun y hy => (hs2.byte y).trans (hother y hy), fun hecc => (hs2.bytes a _).trans (hwritten hecc),
      fun _ => ⟨⟨d1, hdrains ▸ hmemd1, rfl, rfl, hread⟩, ?acc⟩, fun h => absurd h hrest, fun h => absurd h hrest⟩
    case acc => rw [State.acc_modPart, hs2.acc, hstored.core]

theorem amaxMerge_merges {b : BankId} {d : Drain} (hd : (s.part c p).drains.find? (fun d => d.op.bank == b.val && d.read) = some d)
    (ha : inSlice c d.op.amax 4 = true) (hecc : s.ecc = []) :
    ∃ u, exec (.amaxMerge c ⟨p, b⟩) s = .next u ∧ (u.part c p).drains = (s.part c p).drains.filter (fun e => e.op.id != d.op.id)
      ∧ leNat (u.bytes d.op.amax 4) = max (leNat (s.bytes d.op.amax 4) % 2 ^ 31) (rb32 d.amax % 2 ^ 31)
      ∧ (∀ y, y < d.op.amax ∨ d.op.amax + 4 ≤ y → u.byte y = s.byte y) := by
  have hslice := inSlice_le c d.op.amax 4 ha
  have hexec : exec (.amaxMerge c ⟨p, b⟩) s = execAmaxMerge c ⟨p, b⟩ s := rfl
  unfold execAmaxMerge at hexec
  dsimp -zeta only at hexec
  extract_lets at hexec
  rw [hd] at hexec
  dsimp -zeta only at hexec
  rw [s.read_clean _ _ _ _ hecc] at hexec
  extract_lets r old m w at hexec
  have hw : w = (s.store d.op.amax (leBytes 4 (max old m)), false) := s.write_clean _ _ c hecc
  have hstored : Stored s w.1 := stored_write s _ _ c
  have hend := ArraysKept.drainEnd w.1 c p d (d.err || r.2.2 || w.2)
  have hmax : max old m < 256 ^ 4 := by omega
  refine ⟨w.1.drainEnd c p d (d.err || r.2.2 || w.2), hexec, by simp [hend.part, hstored.part], ?max, fun y hy => ?other⟩
  case max =>
    have hread := s.bytes_store d.op.amax (leBytes 4 (max old m)) (by rwa [leBytes_length])
    rw [leBytes_length] at hread
    rw [hend.bytes]
    show leNat (w.1.bytes d.op.amax 4) = max old m
    rw [hw, hread, leNat_leBytes, Nat.mod_eq_of_lt hmax]
  case other =>
    rw [hend.byte]
    exact s.byte_write_other d.op.amax y c _ (by rwa [leBytes_length]) (by rwa [leBytes_length])

/-! ## Seeds (R90) -/

theorem aseedDone_writes {b : BankId} {o : ArrOp} (hf : (s.part c p).seeds.find? (fun o => o.bank == b.val) = some o)
    (hi : (s.part c p).inflight o.bank = 0)
    (hn : ((drainOuts (s.core c).arr.mode p o).map fun x => accKey o.bank (o.mbase + x.1) x.2).Nodup) :
    ∃ u, exec (.aseedDone c ⟨p, b⟩) s = .next u ∧ (u.part c p).seeds = (s.part c p).seeds.filter (fun z => z.id != o.id) ∧ u.mem = s.mem
      ∧ (∀ x, x ∈ drainOuts (s.core c).arr.mode p o →
          let w := leNat (s.bytes (o.addr + x.1 * o.stride + (x.2 - p * partW (s.core c).arr.mode) * 4) 4)
          mapGet {} (u.core c).arr.acc (accKey o.bank (o.mbase + x.1) x.2)
            = (⟨BitVec.ofNat 96 (if (b32v w).isNan then fB32.nanCode else w), (b32v w).isNan, true, 0⟩ : Entry)) := by
  have hexec : exec (.aseedDone c ⟨p, b⟩) s = execAseedDone c ⟨p, b⟩ s := rfl
  unfold execAseedDone at hexec
  dsimp -zeta only at hexec
  extract_lets p' q mode at hexec
  rw [hf] at hexec
  dsimp -zeta only at hexec
  rw [if_pos hi] at hexec
  extract_lets outs at_ r acc s1 at hexec
  have hscan : ArraysKept s r.1 := .scan s _ _ _
  have hend : ArraysKept s1 ((s1.complete c o.tr r.2 (classOp 2 5)).pwrIdle c) := (ArraysKept.complete s1 c o.tr r.2 _).trans (.pwrIdle _ c)
  have hacc : (s1.core c).arr.acc = acc := by simp [s1]
  refine ⟨_, hexec, by simp [hend.part, s1, p', hscan.part], hend.mem.trans hscan.mem, fun x hx => ?_⟩
  rw [hend.acc, hacc]
  refine (mapGet_foldl_set_mem ({} : Entry) (fun x : Nat × Nat => accKey o.bank (o.mbase + x.1) x.2) _ outs _ hn x hx).trans ?_
  rw [hscan.bytes]

end

/-! ## Every operation -/

/-- Settles O24: one lemma for each row; the end of an operation and the change of power state after it keep the arrays. -/
theorem arrayOperations : Obligations.ArrayOperations := by
  refine ⟨fun s c p => ⟨?aload, ?aloadDone, ?scale, ?issue, ?write⟩, fun s c p => ⟨?starts, ?drain, ?amax, ?seed⟩⟩
  case aload => exact fun o r hq hrun hk hl => aloadStart_loads hq hrun hk hl
  case aloadDone => exact fun o hl hp => aloadDone_writes hl hp
  case scale => exact fun o hf hrun hlen => streamScaleRead_appends hf hrun hlen
  case issue => exact fun z fresh u hn hrun hh => astreamRowIssue_issues u hn hrun hh
  case write => exact fun b i r hn hcols => astreamRowWrite_writes hn hcols
  case starts =>
    exact fun o r hq hrun hi => ⟨fun hk => adrainStart_starts hq hrun hi hk, fun hk hd => aseedStart_starts hq hrun hi hk hd,
      fun hk hl hpass hrows hd hs hdest => aflagDone_reads hq hrun hk hl hpass hrows hd hs hdest⟩
  case drain => exact fun b d j n rest hd ht _ => drainOutputWrite_writes hd ht
  case amax => exact fun b d hd ha hecc => amaxMerge_merges hd ha hecc
  case seed => exact fun b o hf hi hn => aseedDone_writes hf hi hn

end Sys2Proof.Machine
end

section
/-! PROOFS. Changes of a core outside its work: its array's power state alone, and the reports of errors by its threads and its
step-fault bit. -/

namespace Sys2Proof.Machine

/-! ## Changes of an array's power state (R98, R103) -/

theorem State.mem_modArr (s : State) (c : Nat) (f : ArrSt → ArrSt) : (s.modArr c f).mem = s.mem := rfl

/-- From `s` to `u` nothing has changed but the array of core `c` and stored registers. -/
structure ArrayOnly (s u : State) (c : Nat) : Prop where
  core : { u.core c with arr := (s.core c).arr } = s.core c
  others : ∀ d, d ≠ c → u.core d = s.core d
  rest : { u with cores := s.cores, regs := s.regs } = s

namespace ArrayOnly

theorem refl (s : State) (c : Nat) : ArrayOnly s s c := ⟨rfl, fun _ _ => rfl, rfl⟩

theorem modArr (s : State) (c : Nat) (f : ArrSt → ArrSt) : ArrayOnly s (s.modArr c f) c :=
  ⟨by simp [State.core_modArr], fun d hd => by simp [State.core_modArr, hd], rfl⟩

theorem pwrGo (s : State) (c : Nat) (st : ArrPwr) (level : Nat) : ArrayOnly s (s.pwrGo c st level) c := by
  unfold State.pwrGo
  extract_lets cfg t s1
  obtain ⟨hcore, hothers, hrest⟩ : ArrayOnly s s1 c := modArr s c _
  split <;> exact ⟨hcore, hothers, hrest⟩

theorem pwrIdle (s : State) (c : Nat) : ArrayOnly s (s.pwrIdle c) c := by
  unfold State.pwrIdle
  dsimp only
  split
  · split <;> exact pwrGo s c _ _
  · exact refl s c

end ArrayOnly

/-- The part of an array outside its power state. -/
def ArrSt.lessPower (a : ArrSt) : ArrSt := { a with pwr := .cold, level := 0, timer := 0, cfg := 0 }

theorem State.arr_pwrGo (s : State) (c : Nat) (st : ArrPwr) (level : Nat) :
    ∃ t cfg, ((s.pwrGo c st level).core c).arr = { (s.core c).arr with pwr := st, level := level, timer := t, cfg := cfg } := by
  unfold State.pwrGo
  extract_lets cfg t s1
  have h : (s1.core c).arr = { (s.core c).arr with pwr := st, level := level, timer := t, cfg := cfg } := by
    simp [s1, State.core_modArr]
  split <;> exact ⟨t, cfg, h⟩

/-- The end of an array's work makes it DRONE or COLD, or leaves it (R98, R99). -/
theorem State.arr_pwrIdle (s : State) (c : Nat) :
    ((s.pwrIdle c).core c).arr.lessPower = (s.core c).arr.lessPower
      ∧ (((s.pwrIdle c).core c).arr.pwr = .softStart → (s.core c).arr.pwr = .softStart) := by
  have hgo : ∀ st level, st ≠ ArrPwr.softStart → ((s.pwrGo c st level).core c).arr.lessPower = (s.core c).arr.lessPower
      ∧ (((s.pwrGo c st level).core c).arr.pwr = .softStart → (s.core c).arr.pwr = .softStart) := by
    intro st level hst
    obtain ⟨t, cfg, h⟩ := s.arr_pwrGo c st level
    rw [h]
    exact ⟨rfl, fun he => absurd he hst⟩
  unfold State.pwrIdle
  dsimp only
  split
  · split <;> exact hgo _ _ (by decide)
  · exact ⟨rfl, id⟩

/-! ## Reports of errors (R127, R137, R138) -/

theorem State.core_post (s : State) (h b i : Nat) (cls : EvClass) (code : Nat) (pl : List Byte) (m : Option (List Byte)) (d : Nat) :
    (s.post h b i cls code pl m).core d = s.core d := by
  obtain ⟨ev, regs, e⟩ := s.post_frame h b i cls code pl m
  rw [e]
  rfl

/-- A core without what its threads, its step-fault bit and the power state of its array hold. -/
def CoreSt.lessReports (k : CoreSt) : CoreSt :=
  { k with thr := [], stepFault := false, sfSource := 0, sfThread := 0, sfCode := 0, arr := k.arr.lessPower }

/-- From `s` to `u` memory, the other cores and, but for its threads, its step-fault bit and its array's power state, core `c` are
the same. -/
structure Reported (s u : State) (c : Nat) : Prop where
  mem : u.mem = s.mem
  others : ∀ d, d ≠ c → u.core d = s.core d
  core : (u.core c).lessReports = (s.core c).lessReports

namespace Reported

theorem refl (s : State) (c : Nat) : Reported s s c := ⟨rfl, fun _ _ => rfl, rfl⟩

theorem trans {s u v : State} {c : Nat} (h : Reported s u c) (k : Reported u v c) : Reported s v c :=
  ⟨k.mem.trans h.mem, fun d hd => (k.others d hd).trans (h.others d hd), k.core.trans h.core⟩

theorem foldl {α : Type} (c : Nat) (f : State → α → State) (h : ∀ s a, Reported s (f s a) c) :
    ∀ (l : List α) (s : State), Reported s (l.foldl f s) c
  | [], s => refl s c
  | a :: l, s => (h s a).trans (foldl c f h l _)

theorem of_cores {s u : State} (c : Nat) (hm : u.mem = s.mem) (hc : u.cores = s.cores) : Reported s u c :=
  have hcore d : u.core d = s.core d := by rw [State.core, State.core, hc]
  ⟨hm, fun d _ => hcore d, by rw [hcore]⟩

theorem setCore (s : State) (c : Nat) (k : CoreSt) (h : k.lessReports = (s.core c).lessReports) : Reported s (s.setCore c k) c :=
  ⟨rfl, fun d hd => by simp [State.core_setCore, hd], by simpa [State.core_setCore] using h⟩

theorem modThread (s : State) (c t : Nat) (f : ThreadSt → ThreadSt) : Reported s (s.modThread c t f) c := setCore s c _ rfl

theorem post (s : State) (c h b i : Nat) (cls : EvClass) (code : Nat) (pl : List Byte) (m : Option (List Byte)) :
    Reported s (s.post h b i cls code pl m) c := by
  obtain ⟨ev, regs, e⟩ := s.post_frame h b i cls code pl m
  rw [e]
  exact of_cores c rfl rfl

theorem scan (s : State) (c : Nat) (us : List Nat) (kind req : Nat) : Reported s (s.scanUnits us kind req).1 c :=
  have h := s.scanUnits_frame us kind req
  of_cores c h.mem h.cores

theorem stepFault (s : State) (c src thr code : Nat) : Reported s (s.stepFault c src thr code) c := by
  obtain ⟨k, h, -, _, _, _, _, hk⟩ := s.stepFault_frame c src thr code
  rw [h]
  exact setCore s c k (by rw [hk]; rfl)

theorem complete (s : State) (c : Nat) (tr : Track) (err : Bool) (cop : Nat) : Reported s (s.complete c tr err cop) c := by
  unfold State.complete
  extract_lets s1 s2
  have hcount : Reported s s1 c := by
    unfold s1
    split
    · exact modThread s c _ _
    · exact refl s c
  have hfault : Reported s s2 c := hcount.trans (stepFault _ c 5 tr.thr 0)
  split
  · split
    · exact hfault
    · exact hfault.trans (post _ _ _ _ _ _ _ _ _)
  · exact hcount

/-- The fetch of a word reports memory errors (R137, R182). -/
theorem fetch (s : State) (c t : Nat) : Reported s (s.fetch c t) c := by
  unfold State.fetch
  extract_lets p
  have hscan : Reported s p.1 c := scan s c _ _ _
  split
  · exact (hscan.trans (modThread _ c t _)).trans (stepFault _ c 4 t 0)
  · exact hscan

theorem pwrIdle (s : State) (c : Nat) : Reported s (s.pwrIdle c) c := by
  have h := ArrayOnly.pwrIdle s c
  refine ⟨(congrArg State.mem h.rest :), h.others, ?_⟩
  have hcore := congrArg CoreSt.lessReports h.core
  have harr := (s.arr_pwrIdle c).1
  unfold CoreSt.lessReports at hcore ⊢
  rw [harr]
  exact hcore

theorem arr {s u : State} {c : Nat} (h : Reported s u c) : (u.core c).arr.lessPower = (s.core c).arr.lessPower := congrArg CoreSt.arr h.core

theorem part {s u : State} {c : Nat} (h : Reported s u c) (p : Nat) : u.part c p = s.part c p :=
  (congrArg (fun a : ArrSt => mapGet ({} : PartSt) a.parts p) h.arr :)

theorem segFault {s u : State} {c : Nat} (h : Reported s u c) (mis : Bool) (segs : List (Nat × Nat)) :
    u.segFault c mis segs = s.segFault c mis segs := by
  have hprog : u.prog c = s.prog c :=
    (congrArg (fun k : CoreSt => (sliceBase c + k.progBase * 65536, k.progSize * 65536)) h.core :)
  unfold State.segFault State.inProg
  rw [hprog]

end Reported

end Sys2Proof.Machine
end

section
/-! PROOFS. Power states and core faults of the matrix array (R92, R95, R97 to R99, R139). -/

namespace Sys2Proof.Machine

section
variable {s : State} {c : CoreId}

/-! ## Power states (R97 to R99) -/

/-- From `s` to `u` the array of core `c` has come to a power state, and nothing else has changed. -/
def ArrayGoes (s u : State) (c : CoreId) (st : ArrPwr) (level timer : Nat) : Prop :=
  (u.core c).arr.pwr = st ∧ (u.core c).arr.level = level ∧ (u.core c).arr.timer = timer
    ∧ { u.core c with arr := (s.core c).arr } = s.core c ∧ (∀ d, d ≠ c.val → u.core d = s.core d)
    ∧ { u with cores := s.cores, regs := s.regs } = s

theorem arrayGoes_modArr {st : ArrPwr} {level timer : Nat} (f : ArrSt → ArrSt) (hp : (f (s.core c).arr).pwr = st)
    (hl : (f (s.core c).arr).level = level) (ht : (f (s.core c).arr).timer = timer) :
    ArrayGoes s (s.modArr c f) c st level timer := by
  obtain ⟨hcore, hothers, hrest⟩ := ArrayOnly.modArr s c f
  have harr : ((s.modArr c f).core c).arr = f (s.core c).arr := by simp [State.core_modArr]
  exact ⟨by rw [harr, hp], by rw [harr, hl], by rw [harr, ht], hcore, hothers, hrest⟩

/-- A further level of a ramp (R98). -/
theorem arrayGoes_pwrLevel_softStart (level : Nat) (h : (s.core c).arr.pwr = .softStart) :
    ArrayGoes s (s.pwrLevel c level) c .softStart level (s.now + field (s.core c).arr.cfg 23 16 * 125) :=
  arrayGoes_modArr _ h rfl (by simp [h])

theorem arrayGoes_pwrLevel_rampDown (level : Nat) (h : (s.core c).arr.pwr = .rampDown) :
    ArrayGoes s (s.pwrLevel c level) c .rampDown level (s.now + field (s.core c).arr.cfg 15 8 * 125) :=
  arrayGoes_modArr _ h rfl (by simp [h])

theorem arrayGoes_rampDown (level : Nat) :
    ArrayGoes s (s.pwrGo c .rampDown level) c .rampDown level (s.now + field (s.raw (aArr c 0x050)) 15 8 * 125) :=
  arrayGoes_modArr
    (fun a => { a with pwr := .rampDown, level := level, timer := s.now + field (s.raw (aArr c 0x050)) 15 8 * 125, cfg := s.raw (aArr c 0x050) })
    rfl rfl rfl

theorem arrayGoes_cold : ArrayGoes s (s.pwrGo c .cold 0) c .cold 0 0 :=
  arrayGoes_modArr (fun a => { a with pwr := .cold, level := 0, timer := 0, cfg := s.raw (aArr c 0x050) }) rfl rfl rfl

theorem droneBeat_counts {p : PartId} (hrun : s.arrRuns c = true) (hp : partHas (s.core c).arr.mode p = true)
    (hpwr : (s.core c).arr.pwr ≠ .cold) (hd : pwrDrone (s.core c).arr.cfg = true) :
    ∃ u, exec (.droneBeat c p) s = .next u
      ∧ (u.raw (aArr c 0x058)).toNat = satAdd 32 (s.raw (aArr c 0x058)).toNat 1 ∧ { u with regs := s.regs } = s := by
  have hexec : exec (.droneBeat c p) s = .next (s.bump (aArr c 0x058)) := if_pos ⟨hrun, hp, hpwr, hd⟩
  have hlt : satAdd 32 (s.raw (aArr c 0x058)).toNat 1 < 2 ^ 32 := by
    unfold satAdd
    split <;> omega
  exact ⟨_, hexec, by rw [State.raw_bump, if_pos rfl, BitVec.toNat_ofNat, Nat.mod_eq_of_lt hlt], s.bump_frame _⟩

theorem softStartLevelTimer_rises (ht : (s.core c).arr.timer ≤ s.now) (h : (s.core c).arr.pwr = .softStart) (hl : (s.core c).arr.level < 8) :
    exec (.softStartLevelTimer c) s = .next (s.pwrLevel c ((s.core c).arr.level + 1)) :=
  (if_pos ⟨h, ht⟩).trans (if_pos hl)

/-- The end of the last level of a soft start enters ACTIVE, which may at once become DRONE or COLD (R98). -/
theorem softStartLevelTimer_ends (ht : (s.core c).arr.timer ≤ s.now) (h : (s.core c).arr.pwr = .softStart) (hl : 8 ≤ (s.core c).arr.level) :
    ∃ u, exec (.softStartLevelTimer c) s = .next u ∧ (u.core c).arr.pwr ≠ .softStart := by
  have hexec : exec (.softStartLevelTimer c) s = .next ((s.pwrGo c .active 8).pwrIdle c) :=
    (if_pos ⟨h, ht⟩).trans (if_neg (Nat.not_lt.mpr hl))
  obtain ⟨t, cfg, harr⟩ := s.arr_pwrGo c .active 8
  have hactive : ((s.pwrGo c .active 8).core c).arr.pwr = .active := by rw [harr]
  refine ⟨_, hexec, fun hsoft => ?_⟩
  rw [((s.pwrGo c .active 8).arr_pwrIdle c).2 hsoft] at hactive
  cases hactive

theorem droneMaxTimer_ramps (ht : (s.core c).arr.timer ≤ s.now) (h : (s.core c).arr.pwr = .drone) :
    exec (.droneMaxTimer c) s
      = .next (if pwrDrone (s.raw (aArr c 0x050)) then s.pwrGo c .rampDown 8 else s.pwrGo c .cold 0) :=
  if_pos ⟨h, ht⟩

theorem rampDownLevelTimer_falls (ht : (s.core c).arr.timer ≤ s.now) (h : (s.core c).arr.pwr = .rampDown) :
    exec (.rampDownLevelTimer c) s
      = if 1 < (s.core c).arr.level then .next (s.pwrLevel c ((s.core c).arr.level - 1)) else .next (s.pwrGo c .cold 0) :=
  if_pos ⟨h, ht⟩

/-! ## Core faults (R92, R95, R139) -/

/-- A core in its fault state, with further bits of CORE_FAULT. -/
def CoreSt.faulted (k : CoreSt) (bits : BitVec 4) : CoreSt :=
  let k1 := k.stopMoves
  { k1 with
    faultState := true
    faultBits := k.faultBits ||| bits
    vec := { k1.vec with loads := [] }
    arr := { k1.arr with parts := k1.arr.parts.map fun p => (p.1, p.2.discard) } }

/-- What a core's reports hold has no part in its fault state. -/
theorem CoreSt.lessReports_faulted (k : CoreSt) (bits : BitVec 4) : (k.faulted bits).lessReports = k.lessReports.faulted bits := rfl

/-- A fault stops its core; the drains that end with it, the reports of the fault and the idle array change no more than reports
(R89, R98, R139). -/
theorem State.coreFault_faulted (s : State) (c : Nat) (bits : BitVec 4) :
    (s.coreFault c bits).mem = s.mem ∧ (∀ d, d ≠ c → (s.coreFault c bits).core d = s.core d)
      ∧ ((s.coreFault c bits).core c).lessReports = ((s.core c).faulted bits).lessReports
      ∧ ((s.coreFault c bits).core c).stepFault = true := by
  unfold State.coreFault
  extract_lets s0 s1
  have hdrains : Reported s s0 c := .foldl c _ (fun q (d : Drain) => .complete q c d.op.tr true _) _ s
  have hs1 : s1 = s0.modCore c (·.faulted bits) := rfl
  have hreport : Reported s1 ((s1.stepFault c 2 0 0).post (halfOf c) 0x20 c .error 3 (leBytes 1 (s1.core c).faultBits.toNat)) c :=
    (Reported.stepFault s1 c 2 0 0).trans (.post _ c _ _ _ _ _ _ _)
  have hsf : (((s1.stepFault c 2 0 0).post (halfOf c) 0x20 c .error 3 (leBytes 1 (s1.core c).faultBits.toNat)).core c).stepFault = true := by
    obtain ⟨k, hk, hset, -⟩ := s1.stepFault_frame c 2 0 0
    rw [State.core_post, hk, State.core_setCore, if_pos rfl, hset]
  generalize (s1.stepFault c 2 0 0).post (halfOf c) 0x20 c .error 3 (leBytes 1 (s1.core c).faultBits.toNat) = s2 at hreport hsf
  obtain ⟨hmem, hothers, hcore⟩ := hreport.trans (.pwrIdle s2 c)
  have hidle : ((s2.pwrIdle c).core c).stepFault = (s2.core c).stepFault :=
    (congrArg CoreSt.stepFault (ArrayOnly.pwrIdle s2 c).core :)
  refine ⟨hmem.trans hdrains.mem, fun d hd => ?_, ?_, hidle.trans hsf⟩
  · rw [hothers d hd, hs1, State.core_modCore, if_neg hd, hdrains.others d hd]
  · rw [hcore, hs1, State.core_modCore, if_pos rfl, CoreSt.lessReports_faulted, hdrains.core, CoreSt.lessReports_faulted]

/-- What a map reads where every listed value has changed and the default value does not. -/
theorem mapGet_map_default {α : Type} (d : α) (f : α → α) (hd : f d = d) (m : Map α) (k : Nat) :
    mapGet d (m.map fun p => (p.1, f p.2)) k = f (mapGet d m k) := by
  induction m with
  | nil => exact hd.symm
  | cons p r ih => rw [List.map_cons, mapGet, mapGet, ih, apply_ite f]

/-- From `s` to `u` core `c` has stopped for a fault: its queues are empty, its entries and flags are kept (R95, R139). -/
def CoreStops (s u : State) (c : CoreId) (b : Nat) : Prop :=
  (u.core c).faultState = true ∧ (u.core c).faultBits = (s.core c).faultBits ||| BitVec.ofNat 4 b
    ∧ (u.core c).arr.acc = (s.core c).arr.acc ∧ (u.core c).mq = []
    ∧ (∀ p, (u.part c p).queue = [] ∧ (u.part c p).rows = [] ∧ (u.part c p).flags = (s.part c p).flags)
    ∧ (u.core c).stepFault = true ∧ (∀ d, d ≠ c.val → u.core d = s.core d) ∧ u.mem = s.mem

theorem coreStops_coreFault (b : Nat) : CoreStops s (s.coreFault c (BitVec.ofNat 4 b)) c b := by
  obtain ⟨hmem, hothers, hcore, hsf⟩ := s.coreFault_faulted c (BitVec.ofNat 4 b)
  generalize s.coreFault c (BitVec.ofNat 4 b) = u at *
  have hpart : ∀ p, u.part c p = (s.part c p).discard := fun p =>
    (congrArg (fun k : CoreSt => mapGet ({} : PartSt) k.arr.parts p) hcore :).trans (mapGet_map_default {} PartSt.discard rfl _ p)
  exact ⟨(congrArg CoreSt.faultState hcore :), (congrArg CoreSt.faultBits hcore :), (congrArg (fun k : CoreSt => k.arr.acc) hcore :),
    (congrArg CoreSt.mq hcore :), fun p => by rw [hpart]; exact ⟨rfl, rfl, rfl⟩, hsf, hothers, hmem⟩

theorem fault_coreFault (bits : BitVec 4) : ((s.coreFault c bits).core c).arr.fault = (s.core c).arr.fault := by
  obtain ⟨-, -, hcore, -⟩ := s.coreFault_faulted c bits
  generalize s.coreFault c bits = u at *
  exact (congrArg (fun k : CoreSt => k.arr.fault) hcore :)

/-- The cause that a fault of the array leaves in ARR_FAULT has no part in how the core stops (R95). -/
theorem CoreStops.of_arrFault {u : State} {b : Nat} (f : BitVec 3 → BitVec 3)
    (h : CoreStops (s.modArr c fun a => { a with fault := f a.fault }) u c b) : CoreStops s u c b := by
  simpa +contextual [CoreStops, State.part, State.core_modArr, State.mem_modArr] using h

theorem arrCoreFault_stops (k : ArrFault) (hr : (s.core c).ready = true) :
    (∃ u, exec (.arrCoreFault c k) s = .next u ∧ CoreStops s u c 1)
      ∧ ∃ u, exec (.arrCoreFault c k) s = .next u ∧ bit (u.core c).arr.fault k.bitNo = true := by
  have hexec : exec (.arrCoreFault c k) s = .next (s.arrFault c k) := if_pos hr
  refine ⟨⟨_, hexec, .of_arrFault (fun b => b ||| BitVec.ofNat 3 (2 ^ k.bitNo)) (coreStops_coreFault 1)⟩, _, hexec, ?_⟩
  rw [State.arrFault, fault_coreFault]
  cases k <;> simp [State.core_modArr, bit, ArrFault.bitNo]

/-- A fault of the issue stage or the move engine stops the core (R139). -/
theorem coreFaultState_stops (hr : (s.core c).ready = true) :
    (∃ u, exec (.coreFaultState c .issue) s = .next u ∧ CoreStops s u c 2)
      ∧ ∃ u, exec (.coreFaultState c .move) s = .next u ∧ CoreStops s u c 4 := by
  have hissue : exec (.coreFaultState c .issue) s = .next (s.coreFault c (BitVec.ofNat 4 2)) := if_pos hr
  have hmove : exec (.coreFaultState c .move) s = .next (s.coreFault c (BitVec.ofNat 4 4)) := if_pos hr
  exact ⟨⟨_, hissue, coreStops_coreFault 2⟩, _, hmove, coreStops_coreFault 4⟩

end

/-- Settles O25: one lemma for each timer and each fault. -/
theorem arrayPowerAndFaults : Obligations.ArrayPowerAndFaults := by
  intro s c a cfg goes
  refine ⟨fun p hrun hp hpwr hd => droneBeat_counts hrun hp hpwr hd, fun ht => ⟨?rises, ?ends, ?ramps, ?stops, ?falls, ?cold⟩,
    fun hr => ⟨fun k => arrCoreFault_stops k hr, coreFaultState_stops hr⟩⟩
  case rises => exact fun h hl => ⟨_, softStartLevelTimer_rises ht h hl, arrayGoes_pwrLevel_softStart _ h⟩
  case ends => exact fun h hl => softStartLevelTimer_ends ht h hl
  case ramps => exact fun h hd => ⟨_, (droneMaxTimer_ramps ht h).trans (congrArg _ (if_pos hd)), arrayGoes_rampDown 8⟩
  case stops => exact fun h hd => ⟨_, (droneMaxTimer_ramps ht h).trans (congrArg _ (if_neg (by simp [cfg, hd]))), arrayGoes_cold⟩
  case falls => exact fun h hl => ⟨_, (rampDownLevelTimer_falls ht h).trans (if_pos hl), arrayGoes_pwrLevel_rampDown _ h⟩
  case cold => exact fun h hl => ⟨_, (rampDownLevelTimer_falls ht h).trans (if_neg (Nat.not_lt.mpr hl)), arrayGoes_cold⟩

end Sys2Proof.Machine
end

section
/-! PROOFS. Array instructions that join their partition's queue (R73, R74, R113, R114, R127). -/

namespace Sys2Proof.Machine

open Sys2Proof.Safety

section
variable {s : State} {c : CoreId} {t : ThreadId} {f : IFields}

/-! ## What an instruction reads after its fetch (R137) -/

/-- The fetch of a word may set MEM_ERR of its thread and changes nothing else of it (R137). -/
theorem State.thread_fetch (s : State) (c t : Nat) : ∃ b, (s.fetch c t).thread c t = { s.thread c t with memErr := b } := by
  unfold State.fetch
  extract_lets p
  have hscan : p.1.thread c t = s.thread c t := by
    rw [State.thread, State.thread, State.core, State.core, (s.scanUnits_frame _ 0 c).cores]
  split
  · exact ⟨true, by rw [State.thread_stepFault, State.thread_modThread, if_pos ⟨rfl, rfl⟩, hscan]⟩
  · exact ⟨_, hscan⟩

@[simp] theorem State.sreg_fetch (s : State) (c t : Nat) (r : BitVec 5) : ((s.fetch c t).thread c t).sreg r = (s.thread c t).sreg r := by
  obtain ⟨b, h⟩ := s.thread_fetch c t
  rw [h]
  rfl

@[simp] theorem State.mode_fetch (s : State) (c t : Nat) : ((s.fetch c t).core c).arr.mode = (s.core c).arr.mode :=
  (congrArg ArrSt.mode (Reported.fetch s c t).arr :)

/-! ## The queue of a partition (R74, R113, R127) -/

/-- From `s` to `u` operation `o` of thread `t` has joined the queue of its partition of core `c`, and no array has done any work. -/
def ArrQueued (s u : State) (c : CoreId) (t : ThreadId) (f : IFields) (o : ArrOp) : Prop :=
  let p := f.im 29 28
  let q := s.part c p
  (u.part c p).queue = q.queue ++ [{ o with id := q.nextId, tr := f.track t }] ∧ (u.part c p).nextId = q.nextId + 1
    ∧ (u.thread c t).pc = (s.thread c t).pc + 8
    ∧ (f.wen = true → (u.thread c t).wait f.wctr.toNat
        = { (s.thread c t).wait f.wctr.toNat with n := ((s.thread c t).wait f.wctr.toNat).n + 1 })
    ∧ (∀ j, j ≠ p → u.part c j = s.part c j) ∧ (∀ d, d ≠ c.val → u.core d = s.core d)
    ∧ (u.core c).arr.acc = (s.core c).arr.acc ∧ (u.part c p).act = q.act ∧ (u.part c p).shd = q.shd ∧ (u.part c p).flags = q.flags
    ∧ u.mem = s.mem

theorem ThreadSt.wait_trackUp (x : ThreadSt) (tr : Track) (h : tr.wen = true) :
    (x.trackUp tr).wait tr.wctr = { x.wait tr.wctr with n := (x.wait tr.wctr).n + 1 } := by
  rw [ThreadSt.trackUp, if_pos h, ThreadSt.wait_setWait, if_pos rfl]

/-- A partition whose queue operation `o` of thread `t` joins: an ASTREAM or ASEED claims a bank that nothing claims (R75, R113). -/
def PartSt.join (q : PartSt) (t : Nat) (o : ArrOp) : PartSt :=
  let q1 := { q with nextId := q.nextId + 1, queue := q.queue ++ [o] }
  match o.kind with
  | .astream => if (q.effClaim o.bank).isNone && (q.claim o.bank).isNone then q1.setClaim o.bank (some ⟨t, o.wide⟩) else q1
  | .aseed => if (q.effClaim o.bank).isNone && (q.claim o.bank).isNone then q1.setClaim o.bank (some ⟨t, true⟩) else q1
  | _ => q1

/-- A thread that has issued array operation `o`: an AFLAG will write a register (R115, R127). -/
def ThreadSt.send (x : ThreadSt) (o : ArrOp) : ThreadSt :=
  let y := x.trackUp o.tr
  if o.kind = .aflag then { y with pend := mapMod 0 y.pend o.dest (· + 1) } else y

/-- Beside the queue no more than the claims of a partition change. -/
theorem PartSt.join_eq (q : PartSt) (t : Nat) (o : ArrOp) :
    ∃ x y, q.join t o = { q with nextId := q.nextId + 1, queue := q.queue ++ [o], claim0 := x, claim1 := y } := by
  have hclaim : ∀ (z : PartSt) (v : Option Claim), ∃ x y, z.setClaim o.bank v = { z with claim0 := x, claim1 := y } := by
    intro z v
    unfold PartSt.setClaim
    split <;> exact ⟨_, _, rfl⟩
  unfold PartSt.join
  extract_lets q1
  split
  · split
    · exact hclaim q1 _
    · exact ⟨_, _, rfl⟩
  · split
    · exact hclaim q1 _
    · exact ⟨_, _, rfl⟩
  · exact ⟨_, _, rfl⟩

theorem ThreadSt.wait_send (x : ThreadSt) (o : ArrOp) (h : o.tr.wen = true) :
    (x.send o).wait o.tr.wctr = { x.wait o.tr.wctr with n := (x.wait o.tr.wctr).n + 1 } := by
  rw [← ThreadSt.wait_trackUp x o.tr h]
  unfold ThreadSt.send
  dsimp only
  split <;> rfl

/-- The state after operation `o1` has joined the queue of partition `p` and its thread, which was `x`, has gone on. -/
def State.queueOp (s : State) (c t p : Nat) (x : ThreadSt) (o1 : ArrOp) : State :=
  ((s.modPart c p fun _ => (s.part c p).join t o1).setThread c t (x.send o1)).modThread c t fun z => { z with pc := x.next }

/-- The fetch before and the queueing itself keep what the arrays hold (R127). -/
theorem arrQueued_queueOp {s1 : State} {o : ArrOp} (h : Reported s s1 c) (hx : ∃ b, s1.thread c t = { s.thread c t with memErr := b }) :
    ArrQueued s (s1.queueOp c t (f.im 29 28) (s1.thread c t) { o with id := (s.part c (f.im 29 28)).nextId, tr := f.track t }) c t f o := by
  unfold State.queueOp
  generalize ho : ({ o with id := (s.part c (f.im 29 28)).nextId, tr := f.track t } : ArrOp) = o1
  obtain ⟨x0, y0, hjoin⟩ := (s1.part c (f.im 29 28)).join_eq t o1
  obtain ⟨m, hx⟩ := hx
  have hkept : ∀ v : State, ArraysKept v ((v.setThread c t ((s1.thread c t).send o1)).modThread c t fun z =>
      { z with pc := (s1.thread c t).next }) := fun v => (ArraysKept.of_modCore v c _ rfl rfl).trans (.modThread _ c t _)
  refine ⟨?queue, ?id, ?pc, fun hwen => ?wait, fun j hj => ?parts, fun d hd => ?cores, ?acc, ?act, ?shd, ?flags, (hkept _).mem.trans h.mem⟩
  case pc => rw [State.thread_modThread, if_pos ⟨rfl, rfl⟩, hx]; rfl
  case wait =>
    rw [State.thread_modThread, if_pos ⟨rfl, rfl⟩, State.thread_setThread, if_pos ⟨rfl, rfl⟩, hx, ← ho]
    exact ThreadSt.wait_send _ { o with id := (s.part c (f.im 29 28)).nextId, tr := f.track t } hwen
  case parts => rw [(hkept _).part, State.part_modPart, if_neg (fun e => hj e.2), h.part]
  case cores => simp [State.modThread, State.core_setThread, State.modPart, State.core_modArr, hd, h.others]
  case acc =>
    rw [(hkept _).acc, State.acc_modPart]
    exact (congrArg ArrSt.acc h.arr :)
  all_goals rw [(hkept _).part, State.part_modPart_same, hjoin, h.part]
  rw [ho]

/-! ## Checks that pass (R73, R74, R114) -/

/-- The partition that an array instruction names has room for it (R73, R74, R110, R127). -/
structure HasRoom (s : State) (c : CoreId) (t : ThreadId) (f : IFields) : Prop where
  track : f.trackOk = true
  part : partHas (s.core c).arr.mode (f.im 29 28) = true
  queue : (s.part c (f.im 29 28)).queue.length < 8
  counter : (s.thread c t).trackRoom (f.track t) = true

section
variable {regs : List (BitVec 5)} {legal : Bool} {chk : State → ThreadSt → PartSt → Option (ArrOp × Option Nat × List (Nat × Nat))}
  {o : ArrOp} {mis : Option Nat} {segs : List (Nat × Nat)}

/-- An array instruction whose checks pass joins the queue of its partition (R73, R74, R114). -/
theorem State.arrIssue_queueOp (hroom : HasRoom s c t f) (hr : Ready s c t regs) (hlegal : legal = true)
    (hchk : chk (s.fetch c t) ((s.fetch c t).thread c t) (s.part c (f.im 29 28)) = some (o, mis, segs))
    (hseg : s.segFault c mis.isSome segs = none) :
    s.arrIssue c t f regs legal chk = .next ((s.fetch c t).queueOp c t (f.im 29 28) ((s.fetch c t).thread c t)
      { o with id := (s.part c (f.im 29 28)).nextId, tr := f.track t }) := by
  obtain ⟨htrack, hpart, hlen, hcounter⟩ := hroom
  have hfetch := Reported.fetch s c t
  have hcounter : ((s.fetch c t).thread c t).trackRoom (f.track t) = true := by
    obtain ⟨b, h⟩ := s.thread_fetch c t
    rw [h]
    exact hcounter
  rw [← hfetch.part] at hlen hchk ⊢
  rw [← hfetch.segFault] at hseg
  unfold State.arrIssue
  extract_lets p
  have hallowed : (f.trackOk && legal && partHas (s.core c).arr.mode p) = true := by simp [htrack, hlegal, hpart, p]
  have hfree : ¬(decide (8 ≤ ((s.fetch c t).part c p).queue.length) || !((s.fetch c t).thread c t).trackRoom (f.track t)) = true := by
    simp [hcounter, hlen, p]
  rw [hallowed]
  refine s.issue_done _ c t regs _ _ hr ((if_neg hfree).trans ?_)
  rw [hchk]
  dsimp only
  rw [hseg]
  rfl

theorem queues_of_arrIssue {i : Instr} {op : Nat × Nat} (hi : threadOp i = some (op, c, t, f))
    (hexec : exec i s = s.decoded c t op f (s.arrIssue c t f regs legal chk)) (hroom : HasRoom s c t f) (hr : Ready s c t regs)
    (hlegal : legal = true) (hchk : chk (s.fetch c t) ((s.fetch c t).thread c t) (s.part c (f.im 29 28)) = some (o, mis, segs))
    (hseg : s.segFault c mis.isSome segs = none) :
    Fetches i s → ∃ u, exec i s = .next u ∧ ArrQueued s u c t f o := by
  intro hf
  rw [hexec, s.decoded_spelled c t op f regs _ hr (hf op c t f hi)]
  exact ⟨_, State.arrIssue_queueOp hroom hr hlegal hchk hseg, arrQueued_queueOp (.fetch s c t) (s.thread_fetch c t)⟩

end

/-! ## The checks of each instruction (R73, R75, R78, R114) -/

/-- The claim that a bank will have, if any, passes a check (R75). -/
def claimPasses (check : Claim → Bool) (o : Option Claim) : Bool :=
  match o with
  | none => true
  | some cl => check cl

theorem claimPasses_of_forall {check : Claim → Bool} {o : Option Claim} (h : ∀ cl, o = some cl → check cl = true) :
    claimPasses check o = true := by
  cases o with
  | none => rfl
  | some cl => exact h cl rfl

/-- The format that a tile will have, if any, is `fmt` (R78). -/
def tilePasses (fmt : Nat) (o : Option Nat) : Bool :=
  match o with
  | none => true
  | some y => y == fmt

theorem tilePasses_of_forall {fmt : Nat} {o : Option Nat} (h : ∀ y, o = some y → y = fmt) : tilePasses fmt o = true := by
  cases o with
  | none => rfl
  | some y => exact beq_iff_eq.mpr (h y rfl)

/-- The checks that the operations on accumulator entries share: columns of the partition, rows of the bank, its claim (R73, R75). -/
theorem entryChecks_pass {mode p cm mb mc : Nat} {check : Claim → Bool} {o : Option Claim} (hmask : maskOk mode p cm = true)
    (hrows : mb + mc ≤ 256) (hclaim : ∀ cl, o = some cl → check cl = true) :
    (!maskOk mode p cm || decide (256 < mb + mc) || !claimPasses check o) = false := by
  simp [hmask, Nat.not_lt.mpr hrows, claimPasses_of_forall hclaim]

theorem misOf_isSome (a st am : Nat) : (misOf a st am).isSome = (a % 64 != 0 || st % 64 != 0 || am % 4 != 0) := by
  unfold misOf
  split
  · next ha => simp [ha]
  · next ha =>
    split
    · next ham => simp [ham]
    · next ham => by_cases hst : st % 64 = 0 <;> simp [Decidable.not_not.mp ha, Decidable.not_not.mp ham, hst]

theorem segFault_misOf {a st am : Nat} {segs : List (Nat × Nat)}
    (h : s.segFault c (a % 64 != 0 || st % 64 != 0 || am % 4 != 0) segs = none) : s.segFault c (misOf a st am).isSome segs = none := by
  rwa [misOf_isSome]

/-- Without a second address only the address and the stride can be misaligned (R114). -/
theorem segFault_misOf_zero {a st : Nat} {segs : List (Nat × Nat)} (h : s.segFault c (a % 64 != 0 || st % 64 != 0) segs = none) :
    s.segFault c (misOf a st 0).isSome segs = none :=
  segFault_misOf (by simpa using h)

end

/-- Settles O23: the checks of each instruction hold, so it joins the queue. -/
theorem arrayInstructionsQueue : Obligations.ArrayInstructionsQueue := by
  intro s c t f p x q mode ra st mb mc bank cols queued htrack hpart hlen hcounter
  have hroom : HasRoom s c t f := ⟨htrack, hpart, hlen, hcounter⟩
  have hcount : 1 ≤ mc → mb + mc ≤ 256 → 1 ≤ f.im 13 5 ∧ f.im 13 5 ≤ 256 := fun hmc hmb =>
    ⟨hmc, Nat.le_trans (Nat.le_add_left mc mb) hmb⟩
  refine ⟨?aflag, ?aload, ?astream, ?adrain, ?aseed⟩
  case aflag =>
    intro hr hb hc hd h27
    exact queues_of_arrIssue rfl rfl hroom hr (by simp [hb, hc, hd, h27]) rfl rfl
  case aload =>
    intro hr hd h23 hfmt fmt rm sa w e hseg
    refine queues_of_arrIssue rfl rfl hroom hr (by simp [hd, h23, hfmt]) ?chk (segFault_misOf_zero hseg)
    case chk =>
      simp only [State.sreg_fetch, State.mode_fetch]
      rfl
  case astream =>
    intro hr h4 hfmt hbits hg hmc hmb fa fb vc km cm sA sB dflt wide swap hmask hclaim htile hnarrow hseg
    refine queues_of_arrIssue rfl rfl hroom hr (by simp [h4, hfmt, hbits, hg, hcount hmc hmb]) ?chk (segFault_misOf_zero hseg)
    case chk =>
      have hentries : (!maskOk mode p cm || decide (256 < mb + mc)
          || !claimPasses (fun cl => cl.thr == t.val && cl.wide == wide) (q.effClaim bank)) = false :=
        entryChecks_pass hmask hmb fun cl h => by simp [hclaim cl h]
      have htileOk : tilePasses fb (if swap then q.effFmts.2 else q.effFmts.1) = true := tilePasses_of_forall htile
      have hpass : ¬(!maskOk mode p cm || decide (256 < mb + mc)
          || !claimPasses (fun cl => cl.thr == t.val && cl.wide == wide) (q.effClaim bank)
          || !tilePasses fb (if swap then q.effFmts.2 else q.effFmts.1)
          || (!wide && !narrowOk fa fb sA sB (sgn 16 (field vc 47 32)) dflt)) = true := by
        rw [hentries, htileOk]
        rcases hnarrow with h | h <;> simp [h]
      simp only [State.sreg_fetch, State.mode_fetch]
      exact if_neg hpass
  case adrain =>
    intro hr hd h4 hfmt hscale hmin hmc hmb cm am hmask hclaim hseg
    have hscaleOk : (execAdrain.scaled8 (f.im 25 22) || sgn 8 (f.im 21 14) == 0) = true := by
      rcases hscale with h | h | h | h <;> simp [execAdrain.scaled8, h]
    refine queues_of_arrIssue rfl rfl hroom hr ?legal ?chk (segFault_misOf hseg)
    case legal =>
      rw [hscaleOk]
      simp [hd, h4, hfmt, hmin, hcount hmc hmb]
    case chk =>
      have hentries : (!maskOk mode p cm || decide (256 < mb + mc) || !claimPasses (fun cl => cl.thr == t.val) (q.effClaim bank)) = false :=
        entryChecks_pass hmask hmb fun cl h => beq_iff_eq.mpr (hclaim cl h)
      simp only [State.sreg_fetch, State.mode_fetch]
      exact if_neg (ne_true_of_eq_false hentries)
  case aseed =>
    intro hr hc hd h4 h26 hmc hmb cm hmask hclaim hseg
    refine queues_of_arrIssue rfl rfl hroom hr (by simp [hc, hd, h4, h26, hcount hmc hmb]) ?chk (segFault_misOf_zero hseg)
    case chk =>
      have hentries : (!maskOk mode p cm || decide (256 < mb + mc)
          || !claimPasses (fun cl => cl.thr == t.val && cl.wide) (q.effClaim bank)) = false :=
        entryChecks_pass hmask hmb fun cl h => by simp [hclaim cl h]
      simp only [State.sreg_fetch, State.mode_fetch]
      exact if_neg (ne_true_of_eq_false hentries)

end Sys2Proof.Machine
end

section
/-! PROOFS. What the writes of the step record and the events of the STEP block leave as it was: the step record but for MEM_UE, the
collectives, the cores, the image, and STEP_CFG. -/

namespace Sys2Proof.Machine

/-! ## STEP_CFG (R237) through events and memory errors -/

/-- What a register holds rests on the stored registers alone. -/
theorem State.raw_congr {s u : State} (h : u.regs = s.regs) (a : Nat) : u.raw a = s.raw a := by rw [State.raw, State.raw, h]

theorem State.raw_bump_other (s : State) {a b : Nat} (h : b ≠ a) : (s.bump a).raw b = s.raw b := by
  rw [State.raw_bump, if_neg h]

/-- No counter of lost records is STEP_CFG. -/
theorem lostCounter_ne_stepCfg (cls : EvClass) : 0xB000C ≠ 0x50040 + 4 * limitIdx cls := by cases cls <;> decide

theorem State.stepCfg_enqueue (s : State) (r : Rec) : (s.enqueue r).raw 0xB000C = s.raw 0xB000C := by
  unfold State.enqueue
  dsimp only
  split
  · rfl
  · exact (State.raw_congr rfl _).trans (s.raw_bump_other (lostCounter_ne_stepCfg r.cls))

theorem State.stepCfg_limitPost (s : State) (r : Rec) : (s.limitPost r).raw 0xB000C = s.raw 0xB000C := by
  unfold State.limitPost
  dsimp only
  split
  · exact State.stepCfg_enqueue _ r
  · exact (State.raw_congr rfl _).trans (s.raw_bump_other (lostCounter_ne_stepCfg r.cls))

theorem State.stepCfg_endLate (s : State) (k code : Nat) : (s.endLate k code).raw 0xB000C = s.raw 0xB000C := by
  unfold State.endLate
  dsimp only
  split
  · rfl
  · split
    · rfl
    · exact State.stepCfg_limitPost _ _

theorem State.stepCfg_postRec (s : State) (r : Rec) : (s.postRec r).raw 0xB000C = s.raw 0xB000C := by
  unfold State.postRec
  dsimp only
  split
  · exact s.stepCfg_enqueue r
  · split
    · have hlate := s.stepCfg_endLate (srcKey r.block r.inst) r.code
      refine (State.raw_congr (s := (s.endLate (srcKey r.block r.inst) r.code).bump 0x50054) rfl _).trans ?_
      rw [State.raw_bump_other _ (by decide), hlate]
    · exact (State.stepCfg_limitPost _ r).trans (s.stepCfg_endLate _ _)

theorem State.stepCfg_post (s : State) (h b i : Nat) (cls : EvClass) (code : Nat) (pl : List Byte) (m : Option (List Byte)) :
    (s.post h b i cls code pl m).raw 0xB000C = s.raw 0xB000C := s.stepCfg_postRec _

/-- The registers of the stacks stand above STEP_CFG. -/
theorem stepCfg_ne_aStk (j off : Nat) : 0xB000C ≠ aStk j off := by unfold aStk; omega

theorem State.stepCfg_corrected (s : State) (k : Nat) : (s.corrected k).raw 0xB000C = s.raw 0xB000C := by
  have hcount : ∀ a, 0xB000C ≠ a → ∀ ecc seen, ({ s.bump a with ecc := ecc, ceSeen := seen } : State).raw 0xB000C = s.raw 0xB000C :=
    fun a ha _ _ => (State.raw_congr rfl _).trans (s.raw_bump_other ha)
  unfold State.corrected
  dsimp only
  rw [State.stepCfg_post]
  cases stackOfKey k with
  | none => exact hcount _ (by decide) _ _
  | some j => exact hcount _ (stepCfg_ne_aStk j _) _ _

theorem State.stepCfg_uncorrectable (s : State) (k kind req : Nat) : (s.uncorrectable k kind req).raw 0xB000C = s.raw 0xB000C := by
  have hregs : ∀ (a b c d e : Nat) (v w : Word) (t : StepSt), 0xB000C ≠ a → 0xB000C ≠ b → 0xB000C ≠ c →
      ({ ((s.bumpBy a d e).setRaw b v).setRaw c w with step := t } : State).raw 0xB000C = s.raw 0xB000C := by
    intro a b c d e v w t ha hb hc
    refine (State.raw_congr (s := ((s.bumpBy a d e).setRaw b v).setRaw c w) rfl _).trans ?_
    rw [State.raw_setRaw, if_neg hc, State.raw_setRaw, if_neg hb, State.bumpBy, State.raw_setRaw, if_neg ha]
  unfold State.uncorrectable
  dsimp only
  rw [State.stepCfg_post]
  cases stackOfKey k with
  | none => exact hregs _ _ _ _ _ _ _ _ (by decide) (by decide) (by decide)
  | some j => exact hregs _ _ _ _ _ _ _ _ (stepCfg_ne_aStk j _) (stepCfg_ne_aStk j _) (stepCfg_ne_aStk j _)

theorem State.stepCfg_scan (s : State) (us : List Nat) (kind req : Nat) : (s.scanUnits us kind req).1.raw 0xB000C = s.raw 0xB000C := by
  unfold State.scanUnits
  refine List.foldlRecOn (motive := fun p : State × Bool => p.1.raw 0xB000C = s.raw 0xB000C) _ _ rfl fun p hp e _ => ?_
  cases e.kind with
  | correctable => exact (p.1.stepCfg_corrected _).trans hp
  | uncorrectable => exact (p.1.stepCfg_uncorrectable _ _ _).trans hp

/-! ## Writes of memory -/

theorem State.refreshBeat_frame (s : State) (a : Nat) : ∃ mem, s.refreshBeat a = { s with mem := mem } := by
  unfold State.refreshBeat
  cases regionAt s.regions a with
  | none => exact ⟨_, rfl⟩
  | some r =>
    dsimp only
    split
    · exact ⟨_, rfl⟩
    · exact ⟨_, rfl⟩

/-- A write without memory errors changes memory alone. -/
theorem State.store_frame (s : State) (a : Nat) (l : List Byte) : ∃ mem, s.store a l = { s with mem := mem } := by
  unfold State.store
  dsimp only
  split
  · exact ⟨_, rfl⟩
  · refine List.foldlRecOn (motive := fun q : State => ∃ mem, q = { s with mem := mem }) _ _ ⟨_, rfl⟩ fun q hq x _ => ?_
    obtain ⟨_, rfl⟩ := hq
    obtain ⟨mem, h⟩ := State.refreshBeat_frame _ x
    exact ⟨mem, h⟩

theorem State.stepCfg_beatAfter (s : State) (us : List Nat) (req a : Nat) : (s.beatAfter us req a).1.raw 0xB000C = s.raw 0xB000C := by
  unfold State.beatAfter
  cases regionAt s.regions a with
  | none => rfl
  | some r =>
    dsimp only
    split
    · have hscan := fun vs => (State.stepCfg_scan _ [unitKey (r.metaKey a)] 1 req).trans (s.stepCfg_scan vs 0 req)
      dsimp only
      split
      · exact hscan _
      · obtain ⟨mem, h⟩ := State.refreshBeat_frame _ a
        rw [h]
        exact hscan _
    · rfl

theorem State.stepCfg_write (s : State) (a : Nat) (l : List Byte) (req : Nat) : (s.write a l req).1.raw 0xB000C = s.raw 0xB000C := by
  unfold State.write
  extract_lets n us hit part bad s1 p s2
  split
  · obtain ⟨mem, h⟩ := s.store_frame a l
    rw [h]
    rfl
  · have hbytes : s2.raw 0xB000C = s.raw 0xB000C := by
      refine List.foldlRecOn (motive := fun q : State => q.raw 0xB000C = s.raw 0xB000C) _ _ (s1.stepCfg_scan _ 1 req) fun q hq i _ => ?_
      cases keyOf s.regions (a + i) with
      | none => exact hq
      | some k =>
        dsimp only
        split <;> exact hq
    split
    · exact hbytes
    · exact List.foldlRecOn (motive := fun q : State × Bool => q.1.raw 0xB000C = s.raw 0xB000C) _ _ hbytes
        fun q hq x _ => (q.1.stepCfg_beatAfter us req x).trans hq

/-! ## The step and what it counts on -/

/-- From `s` to `u` the step record has not changed but for MEM_UE, nor have the collectives, the cores, the image, TIME, the counts of the
buckets and STEP_CFG; without memory errors MEM_UE has not changed either, and there still are none. -/
structure StepKept (s u : State) : Prop where
  step : ∃ ue, u.step = { s.step with memUe := ue }
  col : u.col = s.col
  cores : u.cores = s.cores
  img : u.img = s.img
  now : u.now = s.now
  bkt : u.bkt = s.bkt
  cfg : u.raw 0xB000C = s.raw 0xB000C
  clean : s.ecc = [] → u.ecc = [] ∧ u.step = s.step

namespace StepKept

theorem refl (s : State) : StepKept s s := ⟨⟨_, rfl⟩, rfl, rfl, rfl, rfl, rfl, rfl, fun h => ⟨h, rfl⟩⟩

theorem trans {s t u : State} (h : StepKept s t) (k : StepKept t u) : StepKept s u where
  step := by
    obtain ⟨_, hs⟩ := h.step
    obtain ⟨ue, ks⟩ := k.step
    exact ⟨ue, by rw [ks, hs]⟩
  col := k.col.trans h.col
  cores := k.cores.trans h.cores
  img := k.img.trans h.img
  now := k.now.trans h.now
  bkt := k.bkt.trans h.bkt
  cfg := k.cfg.trans h.cfg
  clean hs := by
    obtain ⟨ht, hstep⟩ := h.clean hs
    obtain ⟨hu, kstep⟩ := k.clean ht
    exact ⟨hu, kstep.trans hstep⟩

theorem foldl {α : Type} (f : State → α → State) (h : ∀ s a, StepKept s (f s a)) (l : List α) (s : State) : StepKept s (l.foldl f s) :=
  List.foldlRecOn (motive := StepKept s) l f (refl s) fun q hq a _ => hq.trans (h q a)

theorem of_stored {s u : State} (h : Stored s u) (cfg : u.raw 0xB000C = s.raw 0xB000C)
    (clean : s.ecc = [] → u.ecc = [] ∧ u.step = s.step) : StepKept s u := by
  obtain ⟨_, _, _, _, _, _, rfl⟩ := h
  exact ⟨⟨_, rfl⟩, rfl, rfl, rfl, rfl, rfl, cfg, clean⟩

theorem post (s : State) (h b i : Nat) (cls : EvClass) (code : Nat) (pl : List Byte) (m : Option (List Byte) := none) :
    StepKept s (s.post h b i cls code pl m) := by
  refine of_stored (stored_post s h b i cls code pl m) (s.stepCfg_post h b i cls code pl m) fun hs => ?_
  obtain ⟨ev, regs, e⟩ := s.post_frame h b i cls code pl m
  rw [e]
  exact ⟨hs, rfl⟩

/-- A counter other than STEP_CFG. -/
theorem bump (s : State) {a : Nat} (h : 0xB000C ≠ a) : StepKept s (s.bump a) :=
  ⟨⟨_, rfl⟩, rfl, rfl, rfl, rfl, rfl, s.raw_bump_other h, fun hs => ⟨hs, rfl⟩⟩

theorem bumpFree (s : State) (n : Nat) : StepKept s (s.bumpFree n) := ⟨⟨_, rfl⟩, rfl, rfl, rfl, rfl, rfl, rfl, fun hs => ⟨hs, rfl⟩⟩

theorem scan (s : State) (us : List Nat) (kind req : Nat) : StepKept s (s.scanUnits us kind req).1 :=
  of_stored (stored_scan s us kind req) (s.stepCfg_scan us kind req) fun hs => by
    rw [s.scanUnits_clean us kind req hs]
    exact ⟨hs, rfl⟩

theorem write (s : State) (a : Nat) (l : List Byte) (req : Nat) : StepKept s (s.write a l req).1 :=
  of_stored (stored_write s a l req) (s.stepCfg_write a l req) fun hs => by
    obtain ⟨mem, e⟩ := s.store_frame a l
    rw [s.write_clean a l req hs, e]
    exact ⟨hs, rfl⟩

theorem put (s : State) (a : Nat) (l : List Byte) : StepKept s (s.put a l) := write s a l _

theorem recPut (s : State) (o : Nat) (l : List Byte) : StepKept s (s.recPut o l) := by
  unfold State.recPut
  cases s.recAt with
  | none => exact refl s
  | some a => exact put s _ l

theorem recGet (s : State) (o n : Nat) : StepKept s (s.recGet o n).1 := by
  unfold State.recGet
  cases s.recAt with
  | none => exact refl s
  | some a => exact scan s _ _ _

theorem readEnt (s : State) (e : Nat) : StepKept s (s.readEnt e) := by
  unfold State.readEnt
  split
  · exact scan s _ _ _
  · exact refl s

theorem writeRec (s : State) (status : Nat) : StepKept s (s.writeRec status) := recPut s _ _

/-- A change of phase, after what keeps the step. -/
theorem setPhase {s u : State} (h : StepKept s u) (p : Phase) :
    StepKept { s with step := { s.step with phase := p } } (u.setPhase p) := by
  refine trans (t := { u with step := { u.step with phase := p } }) ?_ (recPut _ _ _)
  obtain ⟨ue, hstep⟩ := h.step
  exact ⟨⟨ue, by rw [hstep]⟩, h.col, h.cores, h.img, h.now, h.bkt, h.cfg, fun hs => ⟨(h.clean hs).1, by rw [(h.clean hs).2]⟩⟩

/-- The same of a state that is spelled otherwise. -/
theorem setPhase_to {s t u v : State} {p : Phase} (h : StepKept s u) (hv : u.setPhase p = v)
    (ht : t = { s with step := { s.step with phase := p } }) : StepKept t v := by
  rw [ht, ← hv]
  exact h.setPhase p

theorem core {s u : State} (h : StepKept s u) (c : Nat) : u.core c = s.core c := by rw [State.core, State.core, h.cores]

end StepKept

end Sys2Proof.Machine
end

section
/-! PROOFS. The ends of step actions, the votes and the commit (R216, R223 to R236). -/

namespace Sys2Proof.Machine

/-! ## Receive counters (R128, R216) -/

theorem State.addRc_frame (s : State) (c n d : Nat) : ∃ cores, s.addRc c n d = { s with cores := cores } := by
  unfold State.addRc
  dsimp only
  split <;> exact ⟨_, rfl⟩

theorem State.rc_stepFault (s : State) (c a b d e : Nat) : ((s.stepFault c a b d).core e).rc = (s.core e).rc := by
  obtain ⟨k, h, -, _, _, _, _, rfl⟩ := s.stepFault_frame c a b d
  rw [h, State.core_setCore]
  split
  next he => subst he; rfl
  · rfl

theorem State.rc_addRc (s : State) (c n d e : Nat) : ((s.addRc c n d).core e).rc =
    if e = c then mapSet 0 (s.core c).rc n (satAdd 32 (mapGet 0 (s.core c).rc n) d) else (s.core e).rc := by
  have hcore := s.core_modCore c e fun k => { k with rc := mapSet 0 k.rc n (satAdd 32 (mapGet 0 (s.core c).rc n) d) }
  have hrc : ((s.addRc c n d).core e).rc
      = ((s.modCore c fun k => { k with rc := mapSet 0 k.rc n (satAdd 32 (mapGet 0 (s.core c).rc n) d) }).core e).rc := by
    unfold State.addRc
    dsimp only
    split
    · exact State.rc_stepFault _ _ _ _ _ _
    · rfl
  rw [hrc, hcore]
  split <;> rfl

/-- A raise of rc[STEP_RC] at each of several cores. -/
theorem State.rc_foldl_addRc (l : List Nat) (hl : l.Nodup) (s : State) (e : Nat) :
    ((l.foldl (fun q c => q.addRc c q.stepRc 1) s).core e).rc =
      if e ∈ l then mapSet 0 (s.core e).rc s.stepRc (satAdd 32 (mapGet 0 (s.core e).rc s.stepRc) 1) else (s.core e).rc := by
  induction l generalizing s with
  | nil => rfl
  | cons c l ih =>
    obtain ⟨hc, hl⟩ := List.nodup_cons.mp hl
    have hcfg : (s.addRc c s.stepRc 1).stepRc = s.stepRc := by
      obtain ⟨_, h⟩ := s.addRc_frame c s.stepRc 1
      rw [h]
      rfl
    rw [List.foldl_cons, ih hl, hcfg, s.rc_addRc]
    by_cases he : e = c
    · subst he
      simp [hc]
    · simp [he]

/-- A step action's end raises rc[STEP_RC] of every core (R216). -/
theorem State.rc_raiseStep (s : State) {c : Nat} (hc : c < 96) :
    mapGet 0 (s.raiseStep.core c).rc s.stepRc = satAdd 32 (mapGet 0 (s.core c).rc s.stepRc) 1 := by
  have hnodup : (upto 96).Nodup := by
    rw [upto, seqFrom_eq_range']
    exact List.nodup_range'
  rw [State.raiseStep, State.rc_foldl_addRc _ hnodup, if_pos ((mem_upto 96 c).mpr hc), mapGet_set_same]

theorem State.raiseStep_frame (s : State) : ∃ cores, s.raiseStep = { s with cores := cores } := by
  refine List.foldlRecOn (motive := fun q : State => ∃ cores, q = { s with cores := cores }) _ _ ⟨_, rfl⟩ fun q hq c _ => ?_
  obtain ⟨_, rfl⟩ := hq
  obtain ⟨cores, h⟩ := State.addRc_frame _ c _ 1
  exact ⟨cores, h⟩

@[simp] theorem State.step_raiseStep (s : State) : s.raiseStep.step = s.step := by
  obtain ⟨_, h⟩ := s.raiseStep_frame
  rw [h]

/-! ## Commands held back (R235) -/

/-- The recomputation of the scales (R192). -/
theorem StepKept.rescaleAll (s : State) : StepKept s s.rescaleAll :=
  foldl _ (fun q _ => ((scan q _ _ _).trans (put _ _ _)).trans (bumpFree _ 1)) _ s

/-- From `s` to `u` the counters of the step have not changed, nor the action in progress and the receive counters, and an idle STEP block
stays idle. -/
structure CountersKept (s u : State) : Prop where
  committed : u.step.committed = s.step.committed
  attempt : u.step.attempt = s.step.attempt
  micro : u.step.micro = s.step.micro
  actEnd : u.step.actEnd = s.step.actEnd
  idle : s.step.phase = .idle → u.step.phase = .idle
  rc : ∀ c, (u.core c).rc = (s.core c).rc

namespace CountersKept

theorem refl (s : State) : CountersKept s s := ⟨rfl, rfl, rfl, rfl, id, fun _ => rfl⟩

theorem trans {s t u : State} (h : CountersKept s t) (k : CountersKept t u) : CountersKept s u :=
  ⟨k.committed.trans h.committed, k.attempt.trans h.attempt, k.micro.trans h.micro, k.actEnd.trans h.actEnd, k.idle ∘ h.idle,
    fun c => (k.rc c).trans (h.rc c)⟩

theorem foldl {α : Type} (f : State → α → State) (h : ∀ s a, CountersKept s (f s a)) (l : List α) (s : State) :
    CountersKept s (l.foldl f s) :=
  List.foldlRecOn (motive := CountersKept s) l f (refl s) fun q hq a _ => hq.trans (h q a)

theorem of_stepKept {s u : State} (h : StepKept s u) : CountersKept s u := by
  obtain ⟨ue, hstep⟩ := h.step
  exact ⟨by rw [hstep], by rw [hstep], by rw [hstep], by rw [hstep], fun hp => by rw [hstep]; exact hp, fun c => by rw [h.core]⟩

theorem setThread (s : State) (c t : Nat) (x : ThreadSt) : CountersKept s (s.setThread c t x) := by
  refine ⟨rfl, rfl, rfl, rfl, id, fun d => ?_⟩
  rw [State.core_setThread]
  split
  next hd => subst hd; rfl
  · rfl

theorem startThreads (s : State) (r : StartReq) : CountersKept s (s.startThreads r) := by
  refine foldl _ (fun q c => ?_) _ s
  split
  · refine foldl _ (fun p t => ?_) _ q
    split
    · exact setThread p _ _ _
    · exact refl p
  · exact refl q

theorem haltCores (s : State) (cores : BitVec 96) : CountersKept s (s.haltCores cores) := by
  refine foldl _ (fun q c => ?_) _ s
  split
  · refine foldl _ (fun p t => ?_) _ q
    dsimp only
    split
    · exact setThread p _ _ _
    · exact refl p
  · exact refl q

/-- A change of phase away from a phase that is not idle. -/
theorem setPhase (s : State) (p : Phase) (h : s.step.phase ≠ .idle) : CountersKept s (s.setPhase p) := by
  obtain ⟨ue, hstep⟩ := ((StepKept.refl s).setPhase p).step
  exact ⟨by rw [hstep], by rw [hstep], by rw [hstep], by rw [hstep], fun hi => absurd hi h,
    fun c => by rw [((StepKept.refl s).setPhase p).core]; rfl⟩

theorem startNow (s : State) (r : StartReq) : CountersKept s (s.startNow r) := by
  unfold State.startNow
  dsimp only
  refine (of_stepKept (StepKept.rescaleAll s)).trans (trans ?_ (startThreads _ r))
  split
  next hopen =>
    obtain ⟨ue, hstep⟩ := (StepKept.rescaleAll s).step
    refine setPhase _ _ fun hi => ?_
    rw [hstep] at hi
    simp [show s.step.phase = .idle from hi] at hopen
  · exact refl _

theorem goAll (s : State) (e : Nat) : CountersKept s (s.goAll e) := ⟨rfl, rfl, rfl, rfl, id, fun _ => rfl⟩

theorem runDeferred (s : State) : CountersKept s s.runDeferred := by
  unfold State.runDeferred
  split
  · exact refl s
  · refine trans (t := { s with step := { s.step with deferred := [] } }) ⟨rfl, rfl, rfl, rfl, id, fun _ => rfl⟩ (foldl _ (fun q r => ?_) _ _)
    split
    · exact haltCores q _
    · split
      · exact startNow q r
      · exact refl q

end CountersKept

/-! ## Ends of actions (R216, R324 to R326) -/

/-- Entries that pass change the step record but for MEM_UE in nothing. -/
theorem State.step_passAll (s : State) (e n : Nat) : ∃ ue, (s.passAll e n).step = { s.step with memUe := ue } := by
  have hnote : ∀ (q : State) (e : Nat), ∃ ue, (q.raiseNote e).step = { q.step with memUe := ue } := by
    intro q e
    obtain ⟨ue, hread⟩ := (StepKept.readEnt q e).step
    refine ⟨ue, ?_⟩
    rw [← hread]
    unfold State.raiseNote
    dsimp only
    split
    · refine List.foldlRecOn (motive := fun p : State => p.step = (q.readEnt e).step) _ _ rfl fun p hp c _ => ?_
      obtain ⟨_, h⟩ := p.addRc_frame c ((q.ent e).note % 16) 1
      rw [h]
      exact hp
    · rfl
  induction n generalizing s e with
  | zero => exact ⟨_, rfl⟩
  | succ n ih =>
    unfold State.passAll
    split
    · exact ⟨_, rfl⟩
    · obtain ⟨_, hn⟩ := hnote s e
      obtain ⟨ue, hp⟩ := ih (s.raiseNote e) (e + 1)
      exact ⟨ue, by rw [hp, hn]⟩

/-- Where every core's counter STEP_RC stands one higher than before (R216). -/
def Counted (s u : State) : Prop := ∀ c, c < 96 → mapGet 0 (u.core c).rc s.stepRc = satAdd 32 (mapGet 0 (s.core c).rc s.stepRc) 1

theorem Counted.trans {s t u : State} (h : Counted s t) (k : CountersKept t u) : Counted s u := fun c hc => by
  rw [k.rc c]
  exact h c hc

/-- The cores and STEP_CFG decide what the counters show. -/
theorem counted_raiseStep {s t : State} (hcores : t.cores = s.cores) (hcfg : t.raw 0xB000C = s.raw 0xB000C) : Counted s t.raiseStep := by
  intro c hc
  have hrc : t.stepRc = s.stepRc := by rw [State.stepRc, State.stepRc, hcfg]
  have hcore : t.core c = s.core c := by rw [State.core, State.core, hcores]
  rw [← hrc, t.rc_raiseStep hc, hcore]

/-- The module once the end of an action has been written into the record and counted (R216). -/
def State.endNoted (s : State) (status : Nat) : State := ({ s with step := { s.step with actEnd := none } }.writeRec status).raiseStep

theorem State.step_endNoted (s : State) (status : Nat) : ∃ ue, (s.endNoted status).step = { s.step with actEnd := none, memUe := ue } := by
  rw [State.endNoted, State.step_raiseStep]
  exact (StepKept.writeRec _ status).step

theorem counted_endNoted (s : State) (status : Nat) : Counted s (s.endNoted status) :=
  have h := StepKept.writeRec { s with step := { s.step with actEnd := none } } status
  counted_raiseStep h.cores h.cfg

/-- After the end of an action the sequencers go on, past the entries up to STRUM where a vote has muted the step, and the commands held
back are carried out. -/
theorem execStepActionEnd_goes (s : State) (op status : Nat) (h : s.step.actEnd = some (op, status)) :
    ∃ t e, exec .stepActionEnd s = .next (t.goAll e).runDeferred ∧ (t = s.endNoted status
      ∨ (op = 2 ∧ s.step.muted = true ∧ ∃ a n, t = (s.endNoted status).passAll a n)) := by
  show ∃ t e, execStepActionEnd s = _ ∧ _
  unfold execStepActionEnd
  rw [h]
  dsimp only
  split
  · exact ⟨s.endNoted status, _, rfl, .inl rfl⟩
  · split
    · exact ⟨s.endNoted status, _, rfl, .inl rfl⟩
    · split
      next hm =>
        rw [Bool.and_eq_true, beq_iff_eq] at hm
        exact ⟨_, _, rfl, .inr ⟨hm.1, hm.2, _, _, rfl⟩⟩
      · exact ⟨s.endNoted status, _, rfl, .inl rfl⟩

theorem stepActionEnd_ends (s : State) (op status : Nat) (h : s.step.actEnd = some (op, status)) :
    ∃ u, exec .stepActionEnd s = .next u ∧ u.step.actEnd = none ∧ u.step.committed = s.step.committed ∧ u.step.attempt = s.step.attempt
      ∧ ((op ≠ 2 ∨ s.step.muted = false) → Counted s u) := by
  obtain ⟨t, e, hexec, ht⟩ := execStepActionEnd_goes s op status h
  have hkept : CountersKept t (t.goAll e).runDeferred := (CountersKept.goAll t e).trans (CountersKept.runDeferred _)
  obtain ⟨ue, hstep⟩ : ∃ ue, t.step = { s.step with actEnd := none, memUe := ue } := by
    obtain ⟨_, hend⟩ := s.step_endNoted status
    cases ht with
    | inl ht => exact ⟨_, ht ▸ hend⟩
    | inr hpassed =>
      obtain ⟨-, -, a, n, ht⟩ := hpassed
      obtain ⟨ue, hpass⟩ := (s.endNoted status).step_passAll a n
      exact ⟨ue, by rw [ht, hpass, hend]⟩
  refine ⟨_, hexec, by rw [hkept.actEnd, hstep], by rw [hkept.committed, hstep], by rw [hkept.attempt, hstep], fun hcase => ?_⟩
  cases ht with
  | inl ht => exact (ht ▸ counted_endNoted s status : Counted s t).trans hkept
  | inr hpassed =>
    obtain ⟨hop, hmuted, -⟩ := hpassed
    exact absurd hcase (by simp [hop, hmuted])

/-! ## Votes that time out (R224, R225, R231) -/

theorem mem_voteGone_runs {s : State} {r : ColRun} (h : r ∈ s.voteGone.col.runs) : r.kind ≠ 4 := by
  simpa using (List.mem_filter.mp h).2

/-- A mute vote that has timed out leaves the step muted (R224, R225). -/
theorem StepKept.muteExpire (s : State) : StepKept
    { s.voteGone with step := { s.voteGone.step with
        muteJob := 0, muteDone := true, muted := true, muteTimeout := true, muteTime := s.voteTime, actEnd := some (2, 2), phase := .muted } }
    s.muteExpire := by
  unfold State.muteExpire
  exact (((recPut _ _ _).trans (bump _ (show 0xB000C ≠ 0xB0058 by decide))).trans (post _ 0 0x0B 0 .error 2 [0])).setPhase_to rfl rfl

/-- A strum vote that has timed out leaves the step failed, or uncertain where the module voted ready (R224, R231). -/
theorem StepKept.strumExpire (s : State) : StepKept
    { s.voteGone with step := { s.voteGone.step with
        strumDone := true, strumTimeout := true, strumTime := s.voteTime, actEnd := some (3, 2)
        phase := if s.step.votedReady then .uncertain else .failed } }
    s.strumExpire := by
  unfold State.strumExpire
  exact (((bump _ (show 0xB000C ≠ 0xB005C by decide)).trans (post _ 0 0x0B 0 .error 2 [1])).trans
    (post _ 0 0x0B 0 .error 7 (leBytes 1 (b2n s.step.votedReady)))).setPhase_to rfl rfl

theorem muteVoteTimeout_mutes (s : State) (hphase : s.step.phase = .muteVote) (hdue : s.voteDue = true) :
    ∃ u, exec .muteVoteTimeout s = .next u ∧ u.step.phase = .muted ∧ u.step.muted = true ∧ u.step.muteTimeout = true ∧ u.step.muteJob = 0
      ∧ u.step.actEnd = some (2, 2) ∧ u.step.committed = s.step.committed ∧ ∀ r, r ∈ u.col.runs → r.kind ≠ 4 := by
  have hkept := StepKept.muteExpire s
  obtain ⟨_, hstep⟩ := hkept.step
  refine ⟨s.muteExpire, if_pos ⟨hphase, hdue⟩, ?_⟩
  rw [hstep, hkept.col]
  exact ⟨rfl, rfl, rfl, rfl, rfl, rfl, fun r => mem_voteGone_runs⟩

theorem strumVoteTimeout_ends (s : State) (hphase : s.step.phase = .strumVote) (hdue : s.voteDue = true) :
    ∃ u, exec .strumVoteTimeout s = .next u ∧ u.step.phase = (if s.step.votedReady then .uncertain else .failed)
      ∧ u.step.strumTimeout = true ∧ u.step.actEnd = some (3, 2) ∧ u.step.committed = s.step.committed
      ∧ ∀ r, r ∈ u.col.runs → r.kind ≠ 4 := by
  have hkept := StepKept.strumExpire s
  obtain ⟨_, hstep⟩ := hkept.step
  refine ⟨s.strumExpire, if_pos ⟨hphase, hdue⟩, ?_⟩
  rw [hstep, hkept.col]
  exact ⟨rfl, rfl, rfl, rfl, fun r => mem_voteGone_runs⟩

/-! ## Results of votes (R223, R226, R229, R230) -/

/-- What a mute result writes into the step record before the phase (R223, R226). -/
def State.muteNoted (s : State) (v : List Byte) : State :=
  { s.endVote with step := { s.step with
      muteJob := BitVec.ofNat 64 (leAt v 0 8), muteDone := true, muted := !(allZero v), muteTime := s.voteTime, actEnd := some (2, 0) } }

/-- A mute result mutes the step where it holds a cause, and lets it update where it holds none (R223, R226). -/
theorem StepKept.muteResult (s : State) (v : List Byte) : StepKept
    { s.muteNoted v with step := { (s.muteNoted v).step with phase := if !(allZero v) then .muted else .update } }
    (s.muteResult v) := by
  have hput := (recPut (s.muteNoted v) 0x20 (slice v 0 8)).trans (recPut _ 0x200 (slice v 256 1024))
  unfold State.muteResult
  refine setPhase (s := s.muteNoted v) ?_ _
  dsimp only
  split
  · exact (hput.trans (bump _ (by decide))).trans (post _ _ _ _ _ _ _)
  · exact hput

/-- What a strum result writes into the step record first. -/
def State.strumNoted (s : State) (v : List Byte) : State :=
  { s.endVote with step := { s.step with strumJob := BitVec.ofNat 64 (leAt v 0 8), strumDone := true, strumTime := s.voteTime } }

/-- A strum result without a cause starts the commit, which exchanges the bank selectors (R229). -/
theorem strumResult_commits (s : State) (v : List Byte) (h : leAt v 0 8 = 0) : (s.strumResult v).step.phase = .committing
    ∧ (s.strumResult v).step.bankSel = s.step.bankSel ^^^ BitVec.ofNat 16 s.bankDef ∧ (s.strumResult v).step.committed = s.step.committed := by
  have hput := StepKept.recPut (s.strumNoted v) 0x28 (slice v 0 8)
  have hresult : s.strumResult v = ((s.strumNoted v).recPut 0x28 (slice v 0 8)).startCommit (slice v 256 256) := if_pos h
  have hdef : ((s.strumNoted v).recPut 0x28 (slice v 0 8)).bankDef = s.bankDef := by
    rw [State.bankDef, hput.img]
    rfl
  obtain ⟨_, hstep⟩ := hput.step
  obtain ⟨_, _, _, _, _, _, hcommit⟩ := stored_startCommit ((s.strumNoted v).recPut 0x28 (slice v 0 8)) (slice v 256 256)
  rw [hresult, hcommit, hdef, hstep]
  exact ⟨rfl, rfl, rfl⟩

/-- A strum result with a cause fails the step, and the bank selectors stay (R230). -/
theorem strumResult_fails (s : State) (v : List Byte) (h : leAt v 0 8 ≠ 0) : (s.strumResult v).step.phase = .failed
    ∧ (s.strumResult v).step.bankSel = s.step.bankSel ∧ (s.strumResult v).step.strumFailed = true
    ∧ (s.strumResult v).step.committed = s.step.committed := by
  let s3 := (s.strumNoted v).recPut 0x28 (slice v 0 8)
  let s4 : State := { s3 with step := { s3.step with strumFailed := true, actEnd := some (3, 0) } }
  have hresult : s.strumResult v = ((s4.bump 0xB005C).post 0 0x0B 0 .error 6 (leBytes 8 (leAt v 0 8))).setPhase .failed := if_neg h
  obtain ⟨_, hput⟩ := (StepKept.recPut (s.strumNoted v) 0x28 (slice v 0 8)).step
  have hcounted := StepKept.bump s4 (show 0xB000C ≠ 0xB005C by decide)
  obtain ⟨_, hstep⟩ := ((hcounted.trans (StepKept.post _ 0 0x0B 0 .error 6 (leBytes 8 (leAt v 0 8)))).setPhase .failed).step
  rw [hresult, hstep]
  exact ⟨rfl, (congrArg StepSt.bankSel hput :), rfl, (congrArg StepSt.committed hput :)⟩

/-! ## The commit (R229, R236) -/

/-- The pass over the descriptors (R193). -/
theorem StepKept.commitDescs (s : State) : StepKept s s.commitDescs := by
  refine foldl _ (fun q d => ?_) _ s
  have hput := fun l => ((scan q (q.unitsOf (q.descAt d) 192) 0 0x7F).trans (put _ (q.descAt d) l)).trans (bumpFree _ 1)
  unfold State.commitDesc
  dsimp only
  split
  · exact (hput _).trans (post _ _ _ _ _ _ _)
  · exact hput _

/-- The silence monitor leaves the cores and STEP_CFG (R236). -/
theorem State.silence_kept (s : State) (g : Nat) : (s.silence g).cores = s.cores ∧ (s.silence g).raw 0xB000C = s.raw 0xB000C := by
  unfold State.silence
  dsimp only
  split
  · exact ⟨rfl, rfl⟩
  · split
    · exact ⟨(StepKept.post _ 0 0x0B 0 .warning 0x0A _).cores, (State.stepCfg_post _ 0 0x0B 0 .warning 0x0A _ none :)⟩
    · exact ⟨rfl, rfl⟩

/-- What a commit does before it counts leaves the cores and STEP_CFG. -/
theorem State.monitored_kept (s : State) : (s.definedGroups.foldl State.silence s.commitDescs).cores = s.cores
    ∧ (s.definedGroups.foldl State.silence s.commitDescs).raw 0xB000C = s.raw 0xB000C := by
  have hdescs := StepKept.commitDescs s
  refine List.foldlRecOn (motive := fun q : State => q.cores = s.cores ∧ q.raw 0xB000C = s.raw 0xB000C) _ _ ⟨hdescs.cores, hdescs.cfg⟩
    fun q hq g _ => ?_
  obtain ⟨hcores, hcfg⟩ := q.silence_kept g
  exact ⟨hcores.trans hq.1, hcfg.trans hq.2⟩

/-- The module once a commit has counted the step (R229 steps 3 to 5). -/
def State.stepCounted (s : State) : State :=
  let s1 := s.definedGroups.foldl State.silence s.commitDescs
  { s1 with step := { s1.step with committed := s.step.committed + 1, attempt := 0, micro := 0, phase := .idle } }

/-- The end of the commit posts its event, lets the sequencers go on and carries out the commands held back (R229 step 6, R235). -/
theorem execCommitActionEnd_goes (s : State) (h : s.step.phase = .committing) : ∃ e, exec .commitActionEnd s = .next
    (((s.stepCounted.writeRec 0).raiseStep.post 0 0x0B 0 .trace 8 (leBytes 8 (s.step.committed + 1).toNat)).goAll e).runDeferred :=
  ⟨_, if_pos h⟩

theorem commitActionEnd_counts (s : State) (h : s.step.phase = .committing) :
    ∃ u, exec .commitActionEnd s = .next u ∧ u.step.phase = .idle ∧ u.step.committed = s.step.committed + 1 ∧ u.step.attempt = 0
      ∧ u.step.micro = 0 ∧ Counted s u := by
  obtain ⟨e, hexec⟩ := execCommitActionEnd_goes s h
  have hposted := StepKept.post (s.stepCounted.writeRec 0).raiseStep 0 0x0B 0 .trace 8 (leBytes 8 (s.step.committed + 1).toNat)
  have hkept := ((CountersKept.of_stepKept hposted).trans (CountersKept.goAll _ e)).trans (CountersKept.runDeferred _)
  have hwritten := StepKept.writeRec s.stepCounted 0
  have hcounted : Counted s (s.stepCounted.writeRec 0).raiseStep := by
    obtain ⟨hcores, hcfg⟩ := s.monitored_kept
    exact counted_raiseStep (hwritten.cores.trans hcores) (hwritten.cfg.trans hcfg)
  obtain ⟨_, hstep⟩ := hwritten.step
  rw [← State.step_raiseStep] at hstep
  exact ⟨_, hexec, hkept.idle (by rw [hstep]; rfl), by rw [hkept.committed, hstep]; rfl, by rw [hkept.attempt, hstep]; rfl,
    by rw [hkept.micro, hstep]; rfl, hcounted.trans hkept⟩

/-! ## Every end and every vote -/

/-- Settles O32: the end of an action, both timeouts and the commit by the equations of their states; a result by the cause it holds. -/
theorem stepEndsAndVotes : Obligations.StepEndsAndVotes := by
  refine ⟨fun s => ⟨stepActionEnd_ends s, muteVoteTimeout_mutes s, strumVoteTimeout_ends s, commitActionEnd_counts s⟩, fun s v => ?_⟩
  have hmute := StepKept.muteResult s v
  obtain ⟨_, hstep⟩ := hmute.step
  refine ⟨?phase, ?committed, ?selectors, fun h => ?commits, fun h => ?fails, ?counter⟩
  case phase => rw [hstep]; cases allZero v <;> rfl
  case committed => rw [hstep]; rfl
  case selectors => rw [hstep]; rfl
  case commits =>
    obtain ⟨hphase, hbanks, -⟩ := strumResult_commits s v h
    exact ⟨hphase, hbanks⟩
  case fails =>
    obtain ⟨hphase, hbanks, hfailed, -⟩ := strumResult_fails s v h
    exact ⟨hphase, hbanks, hfailed⟩
  case counter =>
    by_cases h : leAt v 0 8 = 0
    · obtain ⟨-, -, hcommitted⟩ := strumResult_commits s v h
      exact hcommitted
    · obtain ⟨-, -, -, hcommitted⟩ := strumResult_fails s v h
      exact hcommitted

end Sys2Proof.Machine
end

section
/-! PROOFS. The actions of the STEP block: OPEN, MICRO, MUTE and STRUM, what each takes and starts, and their refusal (R216 to R223, R228,
R233, R396). -/

namespace Sys2Proof.Machine

/-! ## Actions that may be tried (R216, R217, R396) -/

/-- The length of the schedule rests on the kinds of its entries alone. -/
theorem State.schedLen_congr {s u : State} (h : ∀ e, u.schedKind e = s.schedKind e) (e n : Nat) : u.schedLen e n = s.schedLen e n := by
  induction n generalizing e with
  | zero => rfl
  | succ n ih => simp only [State.schedLen, h, ih]

theorem State.entries_congr {s u : State} (h : ∀ e, u.schedKind e = s.schedKind e) : u.entries = s.entries := State.schedLen_congr h 0 _

theorem State.actEntry_scanned {s u : State} (h : Scanned s u) (op : Nat) : u.actEntry op = s.actEntry op := by
  have hkind : ∀ e, u.schedKind e = s.schedKind e := fun e => by
    obtain ⟨_, _, _, _, _, rfl⟩ := h
    rfl
  have hent : ∀ e, (u.ent e).op = (s.ent e).op := fun e => by
    obtain ⟨_, _, _, _, _, rfl⟩ := h
    rfl
  simp only [State.actEntry, State.entries_congr hkind, hkind, hent]

/-- Correction and report of memory errors do not decide whether OPEN may be tried. -/
theorem State.actReady_open_scanned {s u : State} (h : Scanned s u) : u.actReady 0 = s.actReady 0 := by
  have hentry := State.actEntry_scanned h 0
  obtain ⟨_, _, _, _, _, rfl⟩ := h
  simp only [State.actReady, hentry, true_or, and_true]
  rfl

/-- Without a schedule no action may be tried. -/
theorem State.actReady_unscheduled {s : State} (h : s.img.sched = none) (op : Nat) : s.actReady op = none := by
  have hentries : s.entries = 0 := by
    rw [State.entries, show 4095 = 4094 + 1 from rfl, State.schedLen, State.schedKind]
    simp [h]
  simp [State.actReady, State.actEntry, hentries, upto, seqFrom]

/-- An action after OPEN may be tried once no run is in progress; MICRO also at N - 1 (R216, R324). -/
theorem State.runs_of_actReady {s : State} {op e : Nat} (h : s.actReady op = some e) (hop : 2 ≤ op) : s.col.runs = [] := by
  unfold State.actReady at h
  split at h
  · cases h
  · dsimp only at h
    split at h
    next hready =>
      obtain ⟨-, -, -, -, h0 | hat | h1⟩ := hready
      · omega
      · rw [Bool.and_eq_true, decide_eq_true_iff] at hat
        exact hat.1
      · omega
    · cases h

/-- The module once an action of entry `e` has read and taken its entry (R217, R323, R336). -/
def State.taken (s : State) (op e : Nat) : State :=
  let s1 := (s.readEnt e).consume e
  { s1 with col := { s1.col with drains := s1.col.drains.filter fun d => op ≠ 0 ∧ d.1 ≠ e } }

theorem State.act_taken {s : State} {op e : Nat} (h : s.actReady op = some e) (f : State → State) : s.act op true f = f (s.taken op e) := by
  simp only [State.act, h, State.taken, if_true]

theorem State.act_refuse {s : State} {op e : Nat} (h : s.actReady op = some e) (f : State → State) : s.act op false f = s.refuse e op := by
  simp only [State.act, h, Bool.false_eq_true, if_false]

/-- Where no action may be tried, without a schedule each is refused. -/
theorem State.act_unscheduled {s : State} (h : s.img.sched = none) (hr : s.boot.released = true) (op : Nat) (ok : Bool) (f : State → State) :
    s.act op ok f = s.refused op := by
  rw [State.act, State.actReady_unscheduled h]
  simp [h, hr]

theorem State.readEnt_clean {s : State} (h : s.ecc = []) (e : Nat) : s.readEnt e = s := by
  unfold State.readEnt State.noteRead
  rw [s.scanUnits_clean _ _ _ h]
  split <;> rfl

/-- Once its entry is read, an action takes releases and ends drain timers, and no more. -/
theorem State.taken_frame (s : State) (op e : Nat) : ∃ rel drains,
    s.taken op e = { s.readEnt e with col := { (s.readEnt e).col with rel := rel, drains := drains } } := by
  unfold State.taken State.consume
  exact ⟨_, _, rfl⟩

/-- Without memory errors nothing else changes. -/
theorem State.taken_clean {s : State} (h : s.ecc = []) (op e : Nat) : ∃ rel drains,
    s.taken op e = { s with col := { s.col with rel := rel, drains := drains } } := by
  obtain ⟨rel, drains, htaken⟩ := s.taken_frame op e
  rw [s.readEnt_clean h] at htaken
  exact ⟨rel, drains, htaken⟩

/-- The program field of the record as memory holds it. -/
def State.recBytes (s : State) (o n : Nat) : List Byte :=
  match s.recAt with
  | none => List.replicate n 0
  | some a => s.bytes (a + o) n

theorem State.recGet_clean {s : State} (h : s.ecc = []) (o n : Nat) : s.recGet o n = (s, s.recBytes o n) := by
  unfold State.recGet State.recBytes
  cases s.recAt with
  | none => rfl
  | some a =>
    dsimp only
    rw [s.read_clean _ n 0 0x7F h]

/-! ## Sources that a vote samples (R219, R222) -/

theorem mapGet_mem {α : Type} (d : α) (m : Map α) (k : Nat) : mapGet d m k = d ∨ ∃ p, p ∈ m ∧ mapGet d m k = p.2 := by
  induction m with
  | nil => exact .inl rfl
  | cons p m ih =>
    by_cases h : k = p.1
    · exact .inr ⟨p, List.mem_cons_self, if_pos h⟩
    · rw [show mapGet d (p :: m) k = mapGet d m k from if_neg h]
      exact ih.imp id fun ⟨q, hq, e⟩ => ⟨q, List.mem_cons_of_mem p hq, e⟩

/-- No core holds a step fault or a carrier status. -/
def CoresCleared (s : State) : Prop := ∀ c, (s.core c).stepFault = false ∧ (s.core c).vec.cst = {}

theorem coresCleared_clearCores (s : State) : CoresCleared s.clearCores := by
  intro c
  rcases mapGet_mem {} s.clearCores.cores c with h | ⟨p, hp, h⟩
  · rw [State.core, h]
    exact ⟨rfl, rfl⟩
  · rw [State.core, h]
    obtain ⟨q, -, hq⟩ := List.mem_filterMap.mp hp
    dsimp only at hq
    split at hq
    · cases hq
    · cases hq
      exact ⟨rfl, rfl⟩

theorem CoresCleared.of_cores {s u : State} (h : CoresCleared s) (e : u.cores = s.cores) : CoresCleared u := fun c => by
  rw [State.core, e]
  exact h c

/-! ## OPEN (R219) -/

/-- The step record as OPEN leaves it: a new attempt, its latches cleared and no vote taken yet (R219, R325). -/
def StepSt.opened (t : StepSt) (mode : Nat) : StepSt :=
  { t with
    phase := .window, memUe := false, rstLatch := false, spoilAny := 0, spoilSrc := 0
    attempt := BitVec.ofNat 32 (satAdd 32 t.attempt.toNat 1), micro := if mode = 0 then 0 else t.micro
    votedReady := false, muteDone := false, muted := false, muteTimeout := false
    strumDone := false, strumFailed := false, strumTimeout := false, actEnd := some (0, 0) }

/-- Clearing PSTAT of the descriptors (R219). -/
theorem StepKept.clearPstat (s : State) : StepKept s s.clearPstat := foldl _ (fun q _ => put q _ _) _ s

/-- A window opens: no run, no count of a bucket in mode 0, no fault of a core, and the record of a new attempt. -/
theorem openNow_opens (s : State) (mode : Nat) : ∃ t, t.step = s.step.opened mode ∧ t.col.runs = [] ∧ (mode = 0 → t.bkt = [])
    ∧ CoresCleared t ∧ (s.ecc = [] → t.ecc = []) ∧ StepKept t (s.openNow mode) := by
  unfold State.openNow
  extract_lets s0 col0 s1 s2 t s3 col3 s4
  have h0 : StepKept s s0 := by
    unfold s0
    split
    · split
      · exact StepKept.scan s _ _ _
      · exact StepKept.refl s
    · exact StepKept.refl s
  have hopened : ({ s3.step with phase := .window } : StepSt) = s.step.opened mode := by
    obtain ⟨_, hstep⟩ := h0.step
    have hopen0 : ({ s3.step with phase := .window } : StepSt) = s0.step.opened mode := rfl
    rw [hopen0, hstep]
    rfl
  have hcleared : CoresCleared s3 := (coresCleared_clearCores s1).of_cores rfl
  have hecc : s.ecc = [] → s3.ecc = [] := fun h => (h0.clean h).1
  by_cases hmode : mode = 0
  · have h4 : StepKept { s3 with bkt := [], col := { s3.col with full := 0 } } s4 := by
      unfold s4
      rw [if_pos hmode]
      exact ((StepKept.recPut _ _ _).trans (StepKept.recPut _ _ _)).trans (StepKept.clearPstat _)
    refine ⟨_, ?_, ?_, fun _ => ?_, ?_, ?_, h4.setPhase .window⟩
    · exact hopened
    · rfl
    · rfl
    · exact hcleared
    · exact hecc
  · have h4 : StepKept s3 s4 := by
      unfold s4
      rw [if_neg hmode]
      exact StepKept.refl s3
    refine ⟨_, ?_, ?_, fun h => absurd h hmode, ?_, ?_, h4.setPhase .window⟩
    · exact hopened
    · rfl
    · exact hcleared
    · exact hecc

/-- An entry taken leaves the step record but for MEM_UE, and brings in no memory error. -/
theorem State.taken_kept (s : State) (op e : Nat) : (∃ ue, (s.taken op e).step = { s.step with memUe := ue })
    ∧ (s.ecc = [] → (s.taken op e).ecc = []) := by
  have hread := StepKept.readEnt s e
  obtain ⟨_, _, htaken⟩ := s.taken_frame op e
  rw [htaken]
  exact ⟨hread.step, fun h => (hread.clean h).1⟩

theorem satAdd_lt (w x d : Nat) : satAdd w x d < 2 ^ w := by
  have hpos := Nat.two_pow_pos w
  unfold satAdd
  split <;> omega

/-- OPEN reads its mode and opens the window (R217, R219); the releases of its own entry stay. -/
theorem execOpenStep_opens {s : State} {e : Nat} (h : s.actReady 0 = some e)
    (hphase : s.step.phase = .idle ∨ s.step.phase = .muted ∨ s.step.phase = .failed) (htorn : s.step.torn = false)
    (hmode : leAt (s.recGet 0x1C 1).2 0 1 < 2) : ∃ rel, exec .openStep s = .next
      (let q := ((s.recGet 0x1C 1).1.taken 0 e).openNow (leAt (s.recGet 0x1C 1).2 0 1); { q with col := { q.col with rel := rel } }) := by
  have hscanned : Scanned s (s.recGet 0x1C 1).1 := by
    unfold State.recGet
    cases s.recAt with
    | none => exact Scanned.rfl' s
    | some a => exact s.scanUnits_frame _ _ _
  have hready : (s.recGet 0x1C 1).1.actReady 0 = some e := (State.actReady_open_scanned hscanned).trans h
  have hok : ((s.step.phase == .idle || s.step.phase == .muted || s.step.phase == .failed) && !s.step.torn
      && decide (leAt (s.recGet 0x1C 1).2 0 1 < 2)) = true := by
    rcases hphase with hp | hp | hp <;> simp [hp, htorn, hmode]
  show ∃ rel, execOpenStep s = _
  unfold execOpenStep
  dsimp only
  simp only [h, hok, Option.isSome_some, if_true, State.act_taken hready]
  exact ⟨_, rfl⟩

theorem openStep_opens {s : State} {e : Nat} (h : s.actReady 0 = some e)
    (hphase : s.step.phase = .idle ∨ s.step.phase = .muted ∨ s.step.phase = .failed) (htorn : s.step.torn = false)
    (hmode : leAt (s.recGet 0x1C 1).2 0 1 < 2) :
    ∃ u, exec .openStep s = .next u ∧ u.step.phase = .window ∧ u.step.attempt.toNat = satAdd 32 s.step.attempt.toNat 1
      ∧ u.step.micro = (if leAt (s.recGet 0x1C 1).2 0 1 = 0 then 0 else s.step.micro) ∧ u.step.committed = s.step.committed
      ∧ u.step.muteDone = false ∧ u.step.strumDone = false ∧ u.step.votedReady = false ∧ u.step.actEnd = some (0, 0)
      ∧ (s.ecc = [] → u.step.memUe = false) ∧ u.step.rstLatch = false ∧ u.col.runs = []
      ∧ (leAt (s.recGet 0x1C 1).2 0 1 = 0 → u.bkt = []) ∧ CoresCleared u := by
  obtain ⟨rel, hexec⟩ := execOpenStep_opens h hphase htorn hmode
  have hread := StepKept.recGet s 0x1C 1
  obtain ⟨⟨_, htaken⟩, hclean⟩ := (s.recGet 0x1C 1).1.taken_kept 0 e
  obtain ⟨t, ht, hruns, hbkt, hcores, hecc, hkept⟩ := openNow_opens ((s.recGet 0x1C 1).1.taken 0 e) (leAt (s.recGet 0x1C 1).2 0 1)
  have hopened : t.step = s.step.opened (leAt (s.recGet 0x1C 1).2 0 1) := by
    obtain ⟨_, hstep⟩ := hread.step
    rw [ht, htaken, hstep]
    rfl
  obtain ⟨_, hstep⟩ := hkept.step
  rw [hopened] at hstep
  refine ⟨_, hexec, ?phase, ?attempt, ?micro, ?committed, ?muteDone, ?strumDone, ?votedReady, ?actEnd, ?memUe, ?rstLatch, ?runs, ?bkt, ?cores⟩
  case attempt =>
    rw [hstep]
    exact (BitVec.toNat_ofNat _ _).trans (Nat.mod_eq_of_lt (satAdd_lt 32 _ _))
  case memUe =>
    intro h
    obtain ⟨-, hsame⟩ := hkept.clean (hecc (hclean (hread.clean h).1))
    exact congrArg StepSt.memUe (hsame.trans hopened)
  case runs => exact (congrArg ColSt.runs hkept.col).trans hruns
  case bkt => exact fun h => hkept.bkt.trans (hbkt h)
  case cores => exact hcores.of_cores hkept.cores
  all_goals
    rw [hstep]
    rfl

/-! ## MICRO (R220) -/

theorem execMicro_counts {s : State} {e : Nat} (h : s.actReady 1 = some e) (hphase : s.step.phase = .window) (hmicro : s.step.micro < s.nm1)
    (hecc : s.ecc = []) : ∃ u, exec .micro s = .next u ∧ u.step = { s.step with micro := s.step.micro + 1, actEnd := some (1, 0) }
      ∧ { u with step := s.step, col := s.col } = s := by
  obtain ⟨rel, drains, htaken⟩ := State.taken_clean hecc 1 e
  have hok : (s.step.phase == .window && decide (s.step.micro < s.nm1)) = true := by simp [hphase, hmicro]
  show ∃ u, execMicro s = _ ∧ _
  rw [execMicro, hok, State.act_taken h, htaken]
  exact ⟨_, rfl, rfl, rfl⟩

theorem execMicro_refused {s : State} {e : Nat} (h : s.actReady 1 = some e) (hcase : s.step.phase ≠ .window ∨ s.nm1 ≤ s.step.micro) :
    exec .micro s = .next (s.refuse e 1) := by
  have hok : (s.step.phase == .window && decide (s.step.micro < s.nm1)) = false := by
    rcases hcase with hp | hm
    · simp [hp]
    · simp [Nat.not_lt.mpr hm]
  show execMicro s = _
  rw [execMicro, hok, State.act_refuse h]

/-! ## The start of a vote (R332, R334) -/

/-- From `s` to `q` a vote with the entry and the tag of `r` is the one run in progress, and neither the step record nor a core has
changed. -/
structure Voting (s q : State) (r : ColRun) : Prop where
  step : q.step = s.step
  cores : q.cores = s.cores
  ecc : q.ecc = []
  run : ∃ x, q.col.runs = [x] ∧ x.kind = 4 ∧ x.entry = r.entry ∧ x.tag = r.tag

/-- A packet of the vote's own operand that cannot be read counts as failed; the vote goes on (R335). -/
theorem Voting.colFail {s q : State} {r : ColRun} (h : Voting s q r) (cov : Nat) : Voting s (q.colFail (q.runAt r.entry r.tag) cov) r := by
  obtain ⟨x, hruns, hkind, hentry, htag⟩ := h.run
  have hat : q.runAt r.entry r.tag = x := by simp [State.runAt, hruns, hentry, htag]
  have hfail : q.colFail x cov = { q with col := { q.col with
      failed := satAdd 32 q.col.failed 1, runs := [{ x with failed := x.failed + 1, cover := x.cover + cov }] } } := by
    simp [State.colFail, State.updRun, State.checkRun, State.setRun, hruns, hkind]
  rw [hat, hfail]
  exact ⟨h.step, h.cores, h.ecc, _, rfl, hkind, hentry, htag⟩

theorem Voting.sendScalar {s q : State} {r x : ColRun} (h : Voting s q r) (half k i : Nat) (l : List Byte) :
    Voting s (q.sendScalar half x k i l) r := ⟨h.step, h.cores, h.ecc, h.run⟩

/-- The unit reads a packet of the vote buffer: at most the bridge changes (R189). -/
theorem Voting.bufRead {s q : State} {r x : ColRun} (h : Voting s q r) (i : Nat) : Voting s (q.bufRead 1 x i).1 r := by
  have hcross : ∀ n, Voting s (q.cross 0 1 2 n) r := fun n => by
    unfold State.cross
    split
    · exact h
    · exact ⟨h.step, h.cores, h.ecc, h.run⟩
  unfold State.bufRead
  dsimp only
  split
  · exact h
  · split
    · exact h
    · rw [State.read_clean _ _ _ _ _ (hcross _).ecc]
      exact hcross _

/-- The first axis of a vote starts (R332). -/
theorem Voting.startAxis {s q : State} {r : ColRun} (h : Voting s q r) : Voting s (q.startAxis r) r := by
  have hsent : Voting s ((upto (vecPkts r.len)).foldl (fun q i =>
      let p := q.bufRead 1 r i
      if p.2.2 then p.1.colFail (p.1.runAt r.entry r.tag) 1 else p.1.sendScalar 1 r 1 i p.2.1) q) r :=
    List.foldlRecOn (motive := fun q : State => Voting s q r) _ _ h fun p hp i _ => by
      dsimp only
      split
      · exact (hp.bufRead i).colFail 1
      · exact (hp.bufRead i).sendScalar _ _ _ _
  unfold State.startAxis
  split
  · obtain ⟨x, hruns, hkind, hentry, htag⟩ := hsent.run
    have hcut : ∀ p : State, p.col.runs = [x] → p.scCut r = p := fun p hp => by
      simp [State.scCut, hp, hentry, htag, hkind]
    rw [hcut _ hruns]
    exact hsent
  · exact h

theorem Voting.voteAxis {s : State} {r : ColRun} (hecc : s.ecc = []) (hruns : s.col.runs = [r]) (hkind : r.kind = 4) : Voting s s.voteAxis r := by
  have haxis : s.voteAxis = s.startAxis r := by simp [State.voteAxis, hruns, hkind]
  rw [haxis]
  exact Voting.startAxis ⟨rfl, rfl, hecc, r, hruns, hkind, rfl, rfl⟩

/-- A vote that starts is the one run in progress, and its timer runs from now (R224, R334). -/
theorem startVote_runs {s : State} (hecc : s.ecc = []) (hruns : s.col.runs = []) (hsched : s.img.sched.isSome = true) (op : Nat) (v : List Byte) :
    ∃ r count limit lates, (s.startVote op v).col.runs = [r] ∧ r.kind = 4 ∧ (s.startVote op v).ecc = [] ∧ (s.startVote op v).cores = s.cores
      ∧ (s.startVote op v).step = { s.step with voteAt := s.now, voteCount := count, voteLimit := limit, lateVotes := lates } := by
  obtain ⟨⟨x, c, y⟩, hs⟩ := Option.isSome_iff_exists.mp hsched
  have hput := StepKept.put s (commonsBase + c + 0x800) v
  obtain ⟨hclean, hstep⟩ := hput.clean hecc
  unfold State.startVote
  simp only [hs, hput.col, hruns, hput.now, hstep, List.nil_append]
  exact ⟨_, _, _, _, rfl, rfl, hclean, hput.cores, rfl⟩

/-- From `b` to `u` the vote of the phase `p` has started: its timer runs from now, and its run is in progress. -/
structure VoteStarted (b u : State) (p : Phase) : Prop where
  step : ∃ count limit lates,
    u.step = { b.step with phase := p, voteAt := b.now, voteCount := count, voteLimit := limit, lateVotes := lates }
  cores : u.cores = b.cores
  run : ∃ r, r ∈ u.col.runs ∧ r.kind = 4

/-- With a schedule, no run in progress and no memory error, the write of the causes, the change of phase and the vector start the vote. -/
theorem voteStarted {b : State} (hecc : b.ecc = []) (hruns : b.col.runs = []) (hsched : b.img.sched.isSome = true) (p : Phase) (o op : Nat)
    (l v : List Byte) : VoteStarted b ((((b.recPut o l).setPhase p).startVote op v).voteAxis) p := by
  have hphase := (StepKept.recPut b o l).setPhase p
  obtain ⟨hclean, hstep⟩ := hphase.clean hecc
  obtain ⟨r, count, limit, lates, hrun, hkind, hecc', hcores, hstart⟩ :=
    startVote_runs hclean (by rw [hphase.col]; exact hruns) (by rw [hphase.img]; exact hsched) op v
  have hvote := Voting.voteAxis hecc' hrun hkind
  obtain ⟨x, hx, hxkind, -⟩ := hvote.run
  refine ⟨⟨count, limit, lates, ?_⟩, (hvote.cores.trans hcores).trans hphase.cores, x, by rw [hx]; exact List.mem_singleton_self x, hxkind⟩
  rw [hvote.step, hstart, hstep, hphase.now]

/-! ## MUTE (R221 to R226) -/

/-- Without a schedule no vote may start, so one that may has a schedule. -/
theorem State.sched_of_actReady {s : State} {op e : Nat} (h : s.actReady op = some e) : s.img.sched.isSome = true := by
  cases hs : s.img.sched with
  | none => rw [State.actReady_unscheduled hs] at h; cases h
  | some x => rfl

/-- What MUTE reports before it clears the sources is events alone (R226). -/
theorem StepKept.muteReports (s : State) (loss nf : List Byte) (a b : Prop) [Decidable a] [Decidable b] : StepKept s
    (let q := if a then s.post 0 0x0B 0 .error 5 loss else s
      if b then q else q.post 0 0x0B 0 .error 4 nf) := by
  have hloss : StepKept s (if a then s.post 0 0x0B 0 .error 5 loss else s) := by
    split
    · exact post _ _ _ _ _ _ _
    · exact refl s
  dsimp only
  split
  · exact hloss
  · exact hloss.trans (post _ _ _ _ _ _ _)

/-- The module as MUTE has sampled and reported its causes: `q` holds the word of causes `w`, and is otherwise as the attempt left it. -/
structure MuteSampled (s q : State) (w : DWord) : Prop where
  word : q.step.muteLocal = w
  committed : q.step.committed = s.step.committed
  attempt : q.step.attempt = s.step.attempt
  runs : q.col.runs = s.col.runs
  img : q.img = s.img
  now : q.now = s.now
  ecc : q.ecc = []

theorem MuteSampled.of_stepKept {s q u : State} {w : DWord} (h : MuteSampled s q w) (k : StepKept q u) : MuteSampled s u w := by
  obtain ⟨hecc, hstep⟩ := k.clean h.ecc
  exact ⟨by rw [hstep, h.word], by rw [hstep, h.committed], by rw [hstep, h.attempt], by rw [k.col, h.runs], k.img.trans h.img,
    k.now.trans h.now, hecc⟩

/-- MUTE samples the causes, reports them and starts the vote from cleared sources. -/
theorem execMute_votes {s : State} {e : Nat} (h : s.actReady 2 = some e) (hphase : s.step.phase = .window) (hecc : s.ecc = []) :
    ∃ q : State, ∃ l v, exec .mute s = .next ((((q.clearSources.recPut 0x30 l).setPhase .muteVote).startVote 2 v).voteAxis)
      ∧ MuteSampled s q (BitVec.ofNat 64 (s.muteWord (leAt (s.recGet 0x18 4).2 0 4))) := by
  obtain ⟨rel, drains, htaken⟩ := State.taken_clean hecc 2 e
  obtain ⟨-, hclean⟩ := s.taken_kept 2 e
  have hok : (s.step.phase == .window) = true := by simp [hphase]
  obtain ⟨q1, q, l, v, hexec, hreports, hsampled⟩ : ∃ q1 q : State, ∃ l v,
      exec .mute s = .next ((((q.clearSources.recPut 0x30 l).setPhase .muteVote).startVote 2 v).voteAxis) ∧ StepKept q1 q
        ∧ MuteSampled s q1 (BitVec.ofNat 64 (s.muteWord (leAt (s.recGet 0x18 4).2 0 4))) := by
    show ∃ q1 q : State, ∃ l v, execMute s = _ ∧ _
    unfold execMute
    rw [hok, State.act_taken h, State.recGet_clean (hclean hecc), State.recGet_clean hecc, htaken]
    exact ⟨_, _, _, _, rfl, StepKept.muteReports _ _ _ _ _, rfl, rfl, rfl, rfl, rfl, rfl, hecc⟩
  exact ⟨q, l, v, hexec, hsampled.of_stepKept hreports⟩

theorem execMute_refused {s : State} {e : Nat} (h : s.actReady 2 = some e) (hphase : s.step.phase ≠ .window) :
    exec .mute s = .next (s.refuse e 2) := by
  have hok : (s.step.phase == .window) = false := by simp [hphase]
  show execMute s = _
  rw [execMute, hok, State.act_refuse h]

theorem mute_votes {s : State} {e : Nat} (h : s.actReady 2 = some e) (hphase : s.step.phase = .window) (hecc : s.ecc = []) :
    ∃ u, exec .mute s = .next u ∧ u.step.phase = .muteVote
      ∧ u.step.muteLocal = BitVec.ofNat 64 (s.muteWord (leAt (s.recGet 0x18 4).2 0 4))
      ∧ u.step.committed = s.step.committed ∧ u.step.attempt = s.step.attempt ∧ u.step.memUe = false ∧ u.step.rstLatch = false
      ∧ CoresCleared u ∧ (s.img.sched.isSome = true → u.step.voteAt = s.now ∧ ∃ r, r ∈ u.col.runs ∧ r.kind = 4) := by
  obtain ⟨q, l, v, hexec, hq⟩ := execMute_votes h hphase hecc
  have hvote := voteStarted (b := q.clearSources) hq.ecc (hq.runs.trans (State.runs_of_actReady h (Nat.le_refl 2)))
    (by rw [← State.sched_of_actReady h, ← hq.img]; rfl) .muteVote 0x30 2 l v
  obtain ⟨_, _, _, hstep⟩ := hvote.step
  refine ⟨_, hexec, ?phase, ?word, ?committed, ?attempt, ?memUe, ?rstLatch, ?cores, fun _ => ⟨?timer, hvote.run⟩⟩
  case phase => rw [hstep]
  case word => rw [hstep]; exact hq.word
  case committed => rw [hstep]; exact hq.committed
  case attempt => rw [hstep]; exact hq.attempt
  case memUe => rw [hstep]; rfl
  case rstLatch => rw [hstep]; rfl
  case cores => exact ((coresCleared_clearCores q).of_cores rfl).of_cores hvote.cores
  case timer => rw [hstep]; exact hq.now

/-! ## STRUM (R228, R233) -/

/-- STRUM samples the causes and starts the vote from cleared sources; `q` is the module once the entry is taken. -/
theorem execStrum_votes {s : State} {e : Nat} (h : s.actReady 3 = some e) (hphase : s.step.phase = .update ∨ s.step.phase = .muted)
    (hecc : s.ecc = []) : ∃ q : State, ∃ l v,
      exec .strum s = .next (((((q.clearSources.noteStrum s.strumWord).recPut 0x38 l).setPhase .strumVote).startVote 3 v).voteAxis)
      ∧ q.step = s.step ∧ q.col.runs = s.col.runs ∧ q.img = s.img ∧ q.now = s.now ∧ q.ecc = [] := by
  obtain ⟨rel, drains, htaken⟩ := State.taken_clean hecc 3 e
  obtain ⟨-, hclean⟩ := s.taken_kept 3 e
  have hok : (s.step.phase == .update || s.step.phase == .muted) = true := by
    rcases hphase with hp | hp <;> simp [hp]
  have hword : ({ s with col := { s.col with rel := rel, drains := drains } } : State).strumWord = s.strumWord := rfl
  show ∃ q : State, ∃ l v, execStrum s = _ ∧ _
  unfold execStrum
  dsimp only
  rw [hok, State.act_taken h, State.recGet_clean (hclean hecc), htaken]
  dsimp only
  rw [hword]
  exact ⟨_, _, _, rfl, rfl, rfl, rfl, rfl, hecc⟩

theorem execStrum_refused {s : State} {e : Nat} (h : s.actReady 3 = some e) (hupdate : s.step.phase ≠ .update)
    (hmuted : s.step.phase ≠ .muted) : exec .strum s = .next (s.refuse e 3) := by
  have hok : (s.step.phase == .update || s.step.phase == .muted) = false := by simp [hupdate, hmuted]
  show execStrum s = _
  simp only [execStrum, hok, State.act_refuse h]

theorem strum_votes {s : State} {e : Nat} (h : s.actReady 3 = some e) (hphase : s.step.phase = .update ∨ s.step.phase = .muted)
    (hecc : s.ecc = []) : ∃ u, exec .strum s = .next u ∧ u.step.phase = .strumVote ∧ u.step.strumLocal = BitVec.ofNat 64 s.strumWord
      ∧ u.step.votedReady = decide (s.strumWord = 0) ∧ u.step.committed = s.step.committed
      ∧ (s.img.sched.isSome = true → u.step.voteAt = s.now ∧ ∃ r, r ∈ u.col.runs ∧ r.kind = 4) := by
  obtain ⟨q, l, v, hexec, hq, hruns, himg, hnow, hclean⟩ := execStrum_votes h hphase hecc
  have hvote := voteStarted (b := q.clearSources.noteStrum s.strumWord) hclean (hruns.trans (State.runs_of_actReady h (by decide)))
    (by rw [← State.sched_of_actReady h, ← himg]; rfl) .strumVote 0x38 3 l v
  obtain ⟨_, _, _, hstep⟩ := hvote.step
  refine ⟨_, hexec, ?phase, ?word, ?ready, ?committed, fun _ => ⟨?timer, hvote.run⟩⟩
  case phase => rw [hstep]
  case word => rw [hstep]; rfl
  case ready => rw [hstep]; rfl
  case committed => rw [hstep]; exact (congrArg StepSt.committed hq :)
  case timer => rw [hstep]; exact hnow

/-! ## Every action -/

/-- Settles O31: each action by what it takes, clears and starts; a refusal by the phase, by N - 1 or by the missing schedule. -/
theorem stepActions : Obligations.StepActions := by
  refine ⟨fun s op e h => ⟨?openStep, ?mute, ?strum, ?microRefused, ?muteRefused, ?strumRefused⟩, fun s e h => ⟨?micro, ?last⟩,
    fun s hsched hreleased => ⟨?unscheduled0, ?unscheduled1, ?unscheduled2, ?unscheduled3⟩⟩
  case openStep =>
    rintro rfl hphase htorn hmode
    exact openStep_opens h hphase htorn hmode
  case mute =>
    rintro rfl hphase hecc
    exact mute_votes h hphase hecc
  case strum =>
    rintro rfl hphase hecc
    exact strum_votes h hphase hecc
  case microRefused =>
    rintro rfl hcase
    exact execMicro_refused h hcase
  case muteRefused =>
    rintro rfl hphase
    exact execMute_refused h hphase
  case strumRefused =>
    rintro rfl hupdate hmuted
    exact execStrum_refused h hupdate hmuted
  case micro => exact fun hphase hmicro hecc => execMicro_counts h hphase hmicro hecc
  case last => exact fun hlast => execMicro_refused h (.inr (Nat.le_of_eq hlast.symm))
  case unscheduled0 =>
    have hready := State.actReady_unscheduled hsched 0
    show execOpenStep s = _
    simp only [execOpenStep, hready, Option.isSome_none, Bool.false_eq_true, if_false, State.act_unscheduled hsched hreleased]
  case unscheduled1 => exact congrArg Host.Outcome.next (State.act_unscheduled hsched hreleased 1 _ _)
  case unscheduled2 => exact congrArg Host.Outcome.next (State.act_unscheduled hsched hreleased 2 _ _)
  case unscheduled3 => exact congrArg Host.Outcome.next (State.act_unscheduled hsched hreleased 3 _ _)

end Sys2Proof.Machine
end
